-- ==== Sys2Proof/Word.lean ====
section
/-! DEFINITION. The two word types of the 6502: an 8-bit byte and a 16-bit address (00_scope.md R3, R4). -/

namespace Sys2Proof

/-- 8 bits, numbered 7 down to 0 (00_scope.md R4): registers A, X, Y, S, and every memory byte. -/
abbrev Byte := BitVec 8

/-- 16 bits, numbered 15 down to 0 (00_scope.md R4): addresses and PC. -/
abbrev Word := BitVec 16

end Sys2Proof
end

