-- ==== Sys2Proof/Config.lean ====
section
/-! DEFINITION. What a platform and a variant fix (00_scope.md R3), and the one free value. The constants the ISA fixes (the
vectors, the stack page) are in Machine/Ops.lean. -/

namespace Sys2Proof

/-- What a platform puts at an address (20_memory.md R52, R60). -/
inductive RegionKind where
  /-- Readable and writable memory. -/
  | ram
  /-- Readable memory on which a write has no effect. -/
  | rom
  /-- A device, or memory another bus master writes (R68): a read's value is an input from the environment. -/
  | device
  /-- Nothing: a read's value is unspecified, a write has no effect. -/
  | openBus
  deriving DecidableEq, Repr

/-- One range of the memory map, both ends included. -/
structure Region where
  first : Word
  last : Word
  kind : RegionKind
  deriving DecidableEq, Repr

/-- DECIMAL_MODE (00_scope.md R3, 92 D11): what ADC and SBC do while D is 1. -/
inductive DecimalMode where
  /-- The NMOS formulas (40_arithmetic.md R111, R113). -/
  | nmos
  /-- The model gives them no meaning and refuses (00_scope.md R6). -/
  | refuse
  deriving DecidableEq, Repr

/-- The parameters of 00_scope.md R3 that a user of the model may set. VARIANT and UNDEFINED_OPCODE have one value each in
the spec. -/
structure Platform where
  /-- MEMORY_MAP (D7): the ranges that are not plain RAM; an address in none of them is RAM (assumption 5). -/
  regions : List Region
  /-- JMP_IND_PAGE_WRAP (D10, 30_encoding.md R94). -/
  jmpIndPageWrap : Bool
  /-- INT_CLEARS_D (D12, 60_exceptions.md R213). -/
  intClearsD : Bool
  /-- DECIMAL_MODE (D11, 40_arithmetic.md R111, R113). -/
  decimalMode : DecimalMode
  deriving DecidableEq, Repr

/-- The defaults of 00_scope.md R3 and D7: all 65536 bytes RAM, the NMOS page wrap, D kept by interrupts,
the NMOS decimal mode. -/
def Platform.standard : Platform := ⟨[], true, false, .nmos⟩

/-- FREE VALUE (assumption 7): the byte the `n`th read of an unspecified value gives (20_memory.md R52, U7). It has no body:
nothing in Lean can tell what it is, so what is proved holds whatever it is. -/
opaque Config.unspecifiedByte (n : Nat) : Byte

end Sys2Proof
end

