-- ==== Sys2Proof/Syntax.lean ====
section
/-! DEFINITION. The syntax of the 6502, whole: the 56 mnemonics (00_scope.md R1, 30_encoding.md R99), the 13 address modes
(30 R84), and one constructor of `Instr` for each of the 151 rows of the opcode table, its operand bytes as the opcode's
format gives them (30 R81, R83): a byte for the two-byte formats, a 16-bit address for the three-byte ones. -/

namespace Sys2Proof

/-- The 56 mnemonics of 30_encoding.md R99 (`and` of the spec is spelt `andA`: `and` is a Lean name). -/
inductive Mnemonic where
  | adc | sbc | cmp | cpx | cpy
  | andA | eor | ora | bit
  | asl | lsr | rol | ror
  | bcc | bcs | beq | bmi | bne | bpl | bvc | bvs
  | clc | cld | cli | clv | sec | sed | sei
  | dec | dex | dey | inc | inx | iny
  | jmp | jsr | rts
  | lda | ldx | ldy | sta | stx | sty
  | pha | php | pla | plp | tax | tay | tsx | txa | txs | tya
  | brk | rti | nop
  deriving DecidableEq, Repr

/-- The 13 address modes the opcode table names (30_encoding.md R84). -/
inductive AddrMode where
  | immediate | zeroPage | zeroPageX | zeroPageY | absolute | absoluteX | absoluteY
  | indirectX | indirectY | indirect | relative | accumulator | implied
  deriving DecidableEq, Repr

/-- The eight address modes that give an effective address for data, each with its operand (30_encoding.md R86 to R93). -/
inductive MemMode where
  | zeroPage (zp : Byte)
  | zeroPageX (zp : Byte)
  | zeroPageY (zp : Byte)
  | absolute (addr : Word)
  | absoluteX (addr : Word)
  | absoluteY (addr : Word)
  | indirectX (zp : Byte)
  | indirectY (zp : Byte)
  deriving DecidableEq, Repr

/-- Where a reading instruction finds its operand: in the instruction (Immediate, R85) or in memory. -/
inductive Source where
  | immediate (v : Byte)
  | memory (m : MemMode)
  deriving DecidableEq, Repr

/-- What a shift or rotate works on: register A (Accumulator, R96) or a byte of memory. -/
inductive Target where
  | accumulator
  | memory (m : MemMode)
  deriving DecidableEq, Repr

/-- An instruction's operand as its row gives it: the address mode and the operand bytes. -/
inductive Operand where
  | implied
  | accumulator
  | immediate (v : Byte)
  | memory (m : MemMode)
  | indirect (ptr : Word)
  | relative (disp : Byte)
  deriving DecidableEq, Repr

/-- A reading instruction's operand as an operand of the table. -/
def Source.operand : Source → Operand
  | .immediate v => .immediate v
  | .memory m => .memory m

/-- A shift's operand as an operand of the table. -/
def Target.operand : Target → Operand
  | .accumulator => .accumulator
  | .memory m => .memory m

/-- The name of a memory mode. -/
def MemMode.mode : MemMode → AddrMode
  | .zeroPage _ => .zeroPage
  | .zeroPageX _ => .zeroPageX
  | .zeroPageY _ => .zeroPageY
  | .absolute _ => .absolute
  | .absoluteX _ => .absoluteX
  | .absoluteY _ => .absoluteY
  | .indirectX _ => .indirectX
  | .indirectY _ => .indirectY

/-- The name of an operand's address mode. -/
def Operand.mode : Operand → AddrMode
  | .implied => .implied
  | .accumulator => .accumulator
  | .immediate _ => .immediate
  | .memory m => m.mode
  | .indirect _ => .indirect
  | .relative _ => .relative

/-- The instruction's length in bytes, opcode included, by its address mode (30_encoding.md R81: F1, F2, F3). -/
def AddrMode.length : AddrMode → Nat
  | .implied | .accumulator => 1
  | .immediate | .zeroPage | .zeroPageX | .zeroPageY | .indirectX | .indirectY | .relative => 2
  | .absolute | .absoluteX | .absoluteY | .indirect => 3

/-- The instructions: one constructor per row of the opcode table (30_encoding.md R99), family by family. -/
inductive Instr where
  -- Arithmetic
  | adcImmediate (v : Byte)
  | adcZeroPage (zp : Byte)
  | adcZeroPageX (zp : Byte)
  | adcAbsolute (addr : Word)
  | adcAbsoluteX (addr : Word)
  | adcAbsoluteY (addr : Word)
  | adcIndirectX (zp : Byte)
  | adcIndirectY (zp : Byte)
  | sbcImmediate (v : Byte)
  | sbcZeroPage (zp : Byte)
  | sbcZeroPageX (zp : Byte)
  | sbcAbsolute (addr : Word)
  | sbcAbsoluteX (addr : Word)
  | sbcAbsoluteY (addr : Word)
  | sbcIndirectX (zp : Byte)
  | sbcIndirectY (zp : Byte)
  | cmpImmediate (v : Byte)
  | cmpZeroPage (zp : Byte)
  | cmpZeroPageX (zp : Byte)
  | cmpAbsolute (addr : Word)
  | cmpAbsoluteX (addr : Word)
  | cmpAbsoluteY (addr : Word)
  | cmpIndirectX (zp : Byte)
  | cmpIndirectY (zp : Byte)
  | cpxImmediate (v : Byte)
  | cpxZeroPage (zp : Byte)
  | cpxAbsolute (addr : Word)
  | cpyImmediate (v : Byte)
  | cpyZeroPage (zp : Byte)
  | cpyAbsolute (addr : Word)
  -- Logic
  | andImmediate (v : Byte)
  | andZeroPage (zp : Byte)
  | andZeroPageX (zp : Byte)
  | andAbsolute (addr : Word)
  | andAbsoluteX (addr : Word)
  | andAbsoluteY (addr : Word)
  | andIndirectX (zp : Byte)
  | andIndirectY (zp : Byte)
  | eorImmediate (v : Byte)
  | eorZeroPage (zp : Byte)
  | eorZeroPageX (zp : Byte)
  | eorAbsolute (addr : Word)
  | eorAbsoluteX (addr : Word)
  | eorAbsoluteY (addr : Word)
  | eorIndirectX (zp : Byte)
  | eorIndirectY (zp : Byte)
  | oraImmediate (v : Byte)
  | oraZeroPage (zp : Byte)
  | oraZeroPageX (zp : Byte)
  | oraAbsolute (addr : Word)
  | oraAbsoluteX (addr : Word)
  | oraAbsoluteY (addr : Word)
  | oraIndirectX (zp : Byte)
  | oraIndirectY (zp : Byte)
  | bitZeroPage (zp : Byte)
  | bitAbsolute (addr : Word)
  -- Shift
  | aslZeroPage (zp : Byte)
  | aslZeroPageX (zp : Byte)
  | aslAbsolute (addr : Word)
  | aslAbsoluteX (addr : Word)
  | aslAccumulator
  | lsrZeroPage (zp : Byte)
  | lsrZeroPageX (zp : Byte)
  | lsrAbsolute (addr : Word)
  | lsrAbsoluteX (addr : Word)
  | lsrAccumulator
  | rolZeroPage (zp : Byte)
  | rolZeroPageX (zp : Byte)
  | rolAbsolute (addr : Word)
  | rolAbsoluteX (addr : Word)
  | rolAccumulator
  | rorZeroPage (zp : Byte)
  | rorZeroPageX (zp : Byte)
  | rorAbsolute (addr : Word)
  | rorAbsoluteX (addr : Word)
  | rorAccumulator
  -- Branch
  | bcc (disp : Byte)
  | bcs (disp : Byte)
  | beq (disp : Byte)
  | bmi (disp : Byte)
  | bne (disp : Byte)
  | bpl (disp : Byte)
  | bvc (disp : Byte)
  | bvs (disp : Byte)
  -- FlagOps
  | clc
  | cld
  | cli
  | clv
  | sec
  | sed
  | sei
  -- IncDec
  | decZeroPage (zp : Byte)
  | decZeroPageX (zp : Byte)
  | decAbsolute (addr : Word)
  | decAbsoluteX (addr : Word)
  | dex
  | dey
  | incZeroPage (zp : Byte)
  | incZeroPageX (zp : Byte)
  | incAbsolute (addr : Word)
  | incAbsoluteX (addr : Word)
  | inx
  | iny
  -- Jump
  | jmpAbsolute (addr : Word)
  | jmpIndirect (ptr : Word)
  | jsr (addr : Word)
  | rts
  -- LoadStore
  | ldaImmediate (v : Byte)
  | ldaZeroPage (zp : Byte)
  | ldaZeroPageX (zp : Byte)
  | ldaAbsolute (addr : Word)
  | ldaAbsoluteX (addr : Word)
  | ldaAbsoluteY (addr : Word)
  | ldaIndirectX (zp : Byte)
  | ldaIndirectY (zp : Byte)
  | ldxImmediate (v : Byte)
  | ldxZeroPage (zp : Byte)
  | ldxZeroPageY (zp : Byte)
  | ldxAbsolute (addr : Word)
  | ldxAbsoluteY (addr : Word)
  | ldyImmediate (v : Byte)
  | ldyZeroPage (zp : Byte)
  | ldyZeroPageX (zp : Byte)
  | ldyAbsolute (addr : Word)
  | ldyAbsoluteX (addr : Word)
  | staZeroPage (zp : Byte)
  | staZeroPageX (zp : Byte)
  | staAbsolute (addr : Word)
  | staAbsoluteX (addr : Word)
  | staAbsoluteY (addr : Word)
  | staIndirectX (zp : Byte)
  | staIndirectY (zp : Byte)
  | stxZeroPage (zp : Byte)
  | stxZeroPageY (zp : Byte)
  | stxAbsolute (addr : Word)
  | styZeroPage (zp : Byte)
  | styZeroPageX (zp : Byte)
  | styAbsolute (addr : Word)
  -- StackTransfer
  | pha
  | php
  | pla
  | plp
  | tax
  | tay
  | tsx
  | txa
  | txs
  | tya
  -- System
  | brk
  | rti
  | nop
  deriving DecidableEq, Repr

/-- The mnemonic of an instruction, as its row of 30_encoding.md R99 has it. -/
def Instr.mnemonic : Instr → Mnemonic
  | .adcImmediate _ => .adc
  | .adcZeroPage _ => .adc
  | .adcZeroPageX _ => .adc
  | .adcAbsolute _ => .adc
  | .adcAbsoluteX _ => .adc
  | .adcAbsoluteY _ => .adc
  | .adcIndirectX _ => .adc
  | .adcIndirectY _ => .adc
  | .sbcImmediate _ => .sbc
  | .sbcZeroPage _ => .sbc
  | .sbcZeroPageX _ => .sbc
  | .sbcAbsolute _ => .sbc
  | .sbcAbsoluteX _ => .sbc
  | .sbcAbsoluteY _ => .sbc
  | .sbcIndirectX _ => .sbc
  | .sbcIndirectY _ => .sbc
  | .cmpImmediate _ => .cmp
  | .cmpZeroPage _ => .cmp
  | .cmpZeroPageX _ => .cmp
  | .cmpAbsolute _ => .cmp
  | .cmpAbsoluteX _ => .cmp
  | .cmpAbsoluteY _ => .cmp
  | .cmpIndirectX _ => .cmp
  | .cmpIndirectY _ => .cmp
  | .cpxImmediate _ => .cpx
  | .cpxZeroPage _ => .cpx
  | .cpxAbsolute _ => .cpx
  | .cpyImmediate _ => .cpy
  | .cpyZeroPage _ => .cpy
  | .cpyAbsolute _ => .cpy
  | .andImmediate _ => .andA
  | .andZeroPage _ => .andA
  | .andZeroPageX _ => .andA
  | .andAbsolute _ => .andA
  | .andAbsoluteX _ => .andA
  | .andAbsoluteY _ => .andA
  | .andIndirectX _ => .andA
  | .andIndirectY _ => .andA
  | .eorImmediate _ => .eor
  | .eorZeroPage _ => .eor
  | .eorZeroPageX _ => .eor
  | .eorAbsolute _ => .eor
  | .eorAbsoluteX _ => .eor
  | .eorAbsoluteY _ => .eor
  | .eorIndirectX _ => .eor
  | .eorIndirectY _ => .eor
  | .oraImmediate _ => .ora
  | .oraZeroPage _ => .ora
  | .oraZeroPageX _ => .ora
  | .oraAbsolute _ => .ora
  | .oraAbsoluteX _ => .ora
  | .oraAbsoluteY _ => .ora
  | .oraIndirectX _ => .ora
  | .oraIndirectY _ => .ora
  | .bitZeroPage _ => .bit
  | .bitAbsolute _ => .bit
  | .aslZeroPage _ => .asl
  | .aslZeroPageX _ => .asl
  | .aslAbsolute _ => .asl
  | .aslAbsoluteX _ => .asl
  | .aslAccumulator => .asl
  | .lsrZeroPage _ => .lsr
  | .lsrZeroPageX _ => .lsr
  | .lsrAbsolute _ => .lsr
  | .lsrAbsoluteX _ => .lsr
  | .lsrAccumulator => .lsr
  | .rolZeroPage _ => .rol
  | .rolZeroPageX _ => .rol
  | .rolAbsolute _ => .rol
  | .rolAbsoluteX _ => .rol
  | .rolAccumulator => .rol
  | .rorZeroPage _ => .ror
  | .rorZeroPageX _ => .ror
  | .rorAbsolute _ => .ror
  | .rorAbsoluteX _ => .ror
  | .rorAccumulator => .ror
  | .bcc _ => .bcc
  | .bcs _ => .bcs
  | .beq _ => .beq
  | .bmi _ => .bmi
  | .bne _ => .bne
  | .bpl _ => .bpl
  | .bvc _ => .bvc
  | .bvs _ => .bvs
  | .clc => .clc
  | .cld => .cld
  | .cli => .cli
  | .clv => .clv
  | .sec => .sec
  | .sed => .sed
  | .sei => .sei
  | .decZeroPage _ => .dec
  | .decZeroPageX _ => .dec
  | .decAbsolute _ => .dec
  | .decAbsoluteX _ => .dec
  | .dex => .dex
  | .dey => .dey
  | .incZeroPage _ => .inc
  | .incZeroPageX _ => .inc
  | .incAbsolute _ => .inc
  | .incAbsoluteX _ => .inc
  | .inx => .inx
  | .iny => .iny
  | .jmpAbsolute _ => .jmp
  | .jmpIndirect _ => .jmp
  | .jsr _ => .jsr
  | .rts => .rts
  | .ldaImmediate _ => .lda
  | .ldaZeroPage _ => .lda
  | .ldaZeroPageX _ => .lda
  | .ldaAbsolute _ => .lda
  | .ldaAbsoluteX _ => .lda
  | .ldaAbsoluteY _ => .lda
  | .ldaIndirectX _ => .lda
  | .ldaIndirectY _ => .lda
  | .ldxImmediate _ => .ldx
  | .ldxZeroPage _ => .ldx
  | .ldxZeroPageY _ => .ldx
  | .ldxAbsolute _ => .ldx
  | .ldxAbsoluteY _ => .ldx
  | .ldyImmediate _ => .ldy
  | .ldyZeroPage _ => .ldy
  | .ldyZeroPageX _ => .ldy
  | .ldyAbsolute _ => .ldy
  | .ldyAbsoluteX _ => .ldy
  | .staZeroPage _ => .sta
  | .staZeroPageX _ => .sta
  | .staAbsolute _ => .sta
  | .staAbsoluteX _ => .sta
  | .staAbsoluteY _ => .sta
  | .staIndirectX _ => .sta
  | .staIndirectY _ => .sta
  | .stxZeroPage _ => .stx
  | .stxZeroPageY _ => .stx
  | .stxAbsolute _ => .stx
  | .styZeroPage _ => .sty
  | .styZeroPageX _ => .sty
  | .styAbsolute _ => .sty
  | .pha => .pha
  | .php => .php
  | .pla => .pla
  | .plp => .plp
  | .tax => .tax
  | .tay => .tay
  | .tsx => .tsx
  | .txa => .txa
  | .txs => .txs
  | .tya => .tya
  | .brk => .brk
  | .rti => .rti
  | .nop => .nop

/-- The operand of an instruction: the address mode of its row with its operand bytes. -/
def Instr.operand : Instr → Operand
  | .adcImmediate v => .immediate v
  | .adcZeroPage zp => .memory (.zeroPage zp)
  | .adcZeroPageX zp => .memory (.zeroPageX zp)
  | .adcAbsolute addr => .memory (.absolute addr)
  | .adcAbsoluteX addr => .memory (.absoluteX addr)
  | .adcAbsoluteY addr => .memory (.absoluteY addr)
  | .adcIndirectX zp => .memory (.indirectX zp)
  | .adcIndirectY zp => .memory (.indirectY zp)
  | .sbcImmediate v => .immediate v
  | .sbcZeroPage zp => .memory (.zeroPage zp)
  | .sbcZeroPageX zp => .memory (.zeroPageX zp)
  | .sbcAbsolute addr => .memory (.absolute addr)
  | .sbcAbsoluteX addr => .memory (.absoluteX addr)
  | .sbcAbsoluteY addr => .memory (.absoluteY addr)
  | .sbcIndirectX zp => .memory (.indirectX zp)
  | .sbcIndirectY zp => .memory (.indirectY zp)
  | .cmpImmediate v => .immediate v
  | .cmpZeroPage zp => .memory (.zeroPage zp)
  | .cmpZeroPageX zp => .memory (.zeroPageX zp)
  | .cmpAbsolute addr => .memory (.absolute addr)
  | .cmpAbsoluteX addr => .memory (.absoluteX addr)
  | .cmpAbsoluteY addr => .memory (.absoluteY addr)
  | .cmpIndirectX zp => .memory (.indirectX zp)
  | .cmpIndirectY zp => .memory (.indirectY zp)
  | .cpxImmediate v => .immediate v
  | .cpxZeroPage zp => .memory (.zeroPage zp)
  | .cpxAbsolute addr => .memory (.absolute addr)
  | .cpyImmediate v => .immediate v
  | .cpyZeroPage zp => .memory (.zeroPage zp)
  | .cpyAbsolute addr => .memory (.absolute addr)
  | .andImmediate v => .immediate v
  | .andZeroPage zp => .memory (.zeroPage zp)
  | .andZeroPageX zp => .memory (.zeroPageX zp)
  | .andAbsolute addr => .memory (.absolute addr)
  | .andAbsoluteX addr => .memory (.absoluteX addr)
  | .andAbsoluteY addr => .memory (.absoluteY addr)
  | .andIndirectX zp => .memory (.indirectX zp)
  | .andIndirectY zp => .memory (.indirectY zp)
  | .eorImmediate v => .immediate v
  | .eorZeroPage zp => .memory (.zeroPage zp)
  | .eorZeroPageX zp => .memory (.zeroPageX zp)
  | .eorAbsolute addr => .memory (.absolute addr)
  | .eorAbsoluteX addr => .memory (.absoluteX addr)
  | .eorAbsoluteY addr => .memory (.absoluteY addr)
  | .eorIndirectX zp => .memory (.indirectX zp)
  | .eorIndirectY zp => .memory (.indirectY zp)
  | .oraImmediate v => .immediate v
  | .oraZeroPage zp => .memory (.zeroPage zp)
  | .oraZeroPageX zp => .memory (.zeroPageX zp)
  | .oraAbsolute addr => .memory (.absolute addr)
  | .oraAbsoluteX addr => .memory (.absoluteX addr)
  | .oraAbsoluteY addr => .memory (.absoluteY addr)
  | .oraIndirectX zp => .memory (.indirectX zp)
  | .oraIndirectY zp => .memory (.indirectY zp)
  | .bitZeroPage zp => .memory (.zeroPage zp)
  | .bitAbsolute addr => .memory (.absolute addr)
  | .aslZeroPage zp => .memory (.zeroPage zp)
  | .aslZeroPageX zp => .memory (.zeroPageX zp)
  | .aslAbsolute addr => .memory (.absolute addr)
  | .aslAbsoluteX addr => .memory (.absoluteX addr)
  | .aslAccumulator => .accumulator
  | .lsrZeroPage zp => .memory (.zeroPage zp)
  | .lsrZeroPageX zp => .memory (.zeroPageX zp)
  | .lsrAbsolute addr => .memory (.absolute addr)
  | .lsrAbsoluteX addr => .memory (.absoluteX addr)
  | .lsrAccumulator => .accumulator
  | .rolZeroPage zp => .memory (.zeroPage zp)
  | .rolZeroPageX zp => .memory (.zeroPageX zp)
  | .rolAbsolute addr => .memory (.absolute addr)
  | .rolAbsoluteX addr => .memory (.absoluteX addr)
  | .rolAccumulator => .accumulator
  | .rorZeroPage zp => .memory (.zeroPage zp)
  | .rorZeroPageX zp => .memory (.zeroPageX zp)
  | .rorAbsolute addr => .memory (.absolute addr)
  | .rorAbsoluteX addr => .memory (.absoluteX addr)
  | .rorAccumulator => .accumulator
  | .bcc disp => .relative disp
  | .bcs disp => .relative disp
  | .beq disp => .relative disp
  | .bmi disp => .relative disp
  | .bne disp => .relative disp
  | .bpl disp => .relative disp
  | .bvc disp => .relative disp
  | .bvs disp => .relative disp
  | .clc => .implied
  | .cld => .implied
  | .cli => .implied
  | .clv => .implied
  | .sec => .implied
  | .sed => .implied
  | .sei => .implied
  | .decZeroPage zp => .memory (.zeroPage zp)
  | .decZeroPageX zp => .memory (.zeroPageX zp)
  | .decAbsolute addr => .memory (.absolute addr)
  | .decAbsoluteX addr => .memory (.absoluteX addr)
  | .dex => .implied
  | .dey => .implied
  | .incZeroPage zp => .memory (.zeroPage zp)
  | .incZeroPageX zp => .memory (.zeroPageX zp)
  | .incAbsolute addr => .memory (.absolute addr)
  | .incAbsoluteX addr => .memory (.absoluteX addr)
  | .inx => .implied
  | .iny => .implied
  | .jmpAbsolute addr => .memory (.absolute addr)
  | .jmpIndirect ptr => .indirect ptr
  | .jsr addr => .memory (.absolute addr)
  | .rts => .implied
  | .ldaImmediate v => .immediate v
  | .ldaZeroPage zp => .memory (.zeroPage zp)
  | .ldaZeroPageX zp => .memory (.zeroPageX zp)
  | .ldaAbsolute addr => .memory (.absolute addr)
  | .ldaAbsoluteX addr => .memory (.absoluteX addr)
  | .ldaAbsoluteY addr => .memory (.absoluteY addr)
  | .ldaIndirectX zp => .memory (.indirectX zp)
  | .ldaIndirectY zp => .memory (.indirectY zp)
  | .ldxImmediate v => .immediate v
  | .ldxZeroPage zp => .memory (.zeroPage zp)
  | .ldxZeroPageY zp => .memory (.zeroPageY zp)
  | .ldxAbsolute addr => .memory (.absolute addr)
  | .ldxAbsoluteY addr => .memory (.absoluteY addr)
  | .ldyImmediate v => .immediate v
  | .ldyZeroPage zp => .memory (.zeroPage zp)
  | .ldyZeroPageX zp => .memory (.zeroPageX zp)
  | .ldyAbsolute addr => .memory (.absolute addr)
  | .ldyAbsoluteX addr => .memory (.absoluteX addr)
  | .staZeroPage zp => .memory (.zeroPage zp)
  | .staZeroPageX zp => .memory (.zeroPageX zp)
  | .staAbsolute addr => .memory (.absolute addr)
  | .staAbsoluteX addr => .memory (.absoluteX addr)
  | .staAbsoluteY addr => .memory (.absoluteY addr)
  | .staIndirectX zp => .memory (.indirectX zp)
  | .staIndirectY zp => .memory (.indirectY zp)
  | .stxZeroPage zp => .memory (.zeroPage zp)
  | .stxZeroPageY zp => .memory (.zeroPageY zp)
  | .stxAbsolute addr => .memory (.absolute addr)
  | .styZeroPage zp => .memory (.zeroPage zp)
  | .styZeroPageX zp => .memory (.zeroPageX zp)
  | .styAbsolute addr => .memory (.absolute addr)
  | .pha => .implied
  | .php => .implied
  | .pla => .implied
  | .plp => .implied
  | .tax => .implied
  | .tay => .implied
  | .tsx => .implied
  | .txa => .implied
  | .txs => .implied
  | .tya => .implied
  | .brk => .implied
  | .rti => .implied
  | .nop => .implied

/-- The instruction's length in bytes (30_encoding.md R80, R81). -/
def Instr.length (i : Instr) : Nat := i.operand.mode.length

end Sys2Proof
end

