-- ==== Sys2Proof/WellFormed.lean ====
section
/-! DEFINITION. Well-formedness. The types of `Instr` already bound every operand to its width (30_encoding.md R81), so what
is left to check of an instruction is that its mnemonic has the address mode it is used in (30 R85 to R97, R99). Of a platform,
that MEMORY_MAP is a map: no range runs backwards and no address lies in two ranges (20_memory.md R52, R60). -/

namespace Sys2Proof

/-- The address modes the opcode table gives each mnemonic (30_encoding.md R99; the Encoding lines of R115 to R202). -/
def Mnemonic.modes : Mnemonic → List AddrMode
  | .adc => [.immediate, .zeroPage, .zeroPageX, .absolute, .absoluteX, .absoluteY, .indirectX, .indirectY]
  | .sbc => [.immediate, .zeroPage, .zeroPageX, .absolute, .absoluteX, .absoluteY, .indirectX, .indirectY]
  | .cmp => [.immediate, .zeroPage, .zeroPageX, .absolute, .absoluteX, .absoluteY, .indirectX, .indirectY]
  | .cpx => [.immediate, .zeroPage, .absolute]
  | .cpy => [.immediate, .zeroPage, .absolute]
  | .andA => [.immediate, .zeroPage, .zeroPageX, .absolute, .absoluteX, .absoluteY, .indirectX, .indirectY]
  | .eor => [.immediate, .zeroPage, .zeroPageX, .absolute, .absoluteX, .absoluteY, .indirectX, .indirectY]
  | .ora => [.immediate, .zeroPage, .zeroPageX, .absolute, .absoluteX, .absoluteY, .indirectX, .indirectY]
  | .bit => [.zeroPage, .absolute]
  | .asl => [.zeroPage, .zeroPageX, .absolute, .absoluteX, .accumulator]
  | .lsr => [.zeroPage, .zeroPageX, .absolute, .absoluteX, .accumulator]
  | .rol => [.zeroPage, .zeroPageX, .absolute, .absoluteX, .accumulator]
  | .ror => [.zeroPage, .zeroPageX, .absolute, .absoluteX, .accumulator]
  | .bcc => [.relative]
  | .bcs => [.relative]
  | .beq => [.relative]
  | .bmi => [.relative]
  | .bne => [.relative]
  | .bpl => [.relative]
  | .bvc => [.relative]
  | .bvs => [.relative]
  | .clc => [.implied]
  | .cld => [.implied]
  | .cli => [.implied]
  | .clv => [.implied]
  | .sec => [.implied]
  | .sed => [.implied]
  | .sei => [.implied]
  | .dec => [.zeroPage, .zeroPageX, .absolute, .absoluteX]
  | .dex => [.implied]
  | .dey => [.implied]
  | .inc => [.zeroPage, .zeroPageX, .absolute, .absoluteX]
  | .inx => [.implied]
  | .iny => [.implied]
  | .jmp => [.absolute, .indirect]
  | .jsr => [.absolute]
  | .rts => [.implied]
  | .lda => [.immediate, .zeroPage, .zeroPageX, .absolute, .absoluteX, .absoluteY, .indirectX, .indirectY]
  | .ldx => [.immediate, .zeroPage, .zeroPageY, .absolute, .absoluteY]
  | .ldy => [.immediate, .zeroPage, .zeroPageX, .absolute, .absoluteX]
  | .sta => [.zeroPage, .zeroPageX, .absolute, .absoluteX, .absoluteY, .indirectX, .indirectY]
  | .stx => [.zeroPage, .zeroPageY, .absolute]
  | .sty => [.zeroPage, .zeroPageX, .absolute]
  | .pha => [.implied]
  | .php => [.implied]
  | .pla => [.implied]
  | .plp => [.implied]
  | .tax => [.implied]
  | .tay => [.implied]
  | .tsx => [.implied]
  | .txa => [.implied]
  | .txs => [.implied]
  | .tya => [.implied]
  | .brk => [.implied]
  | .rti => [.implied]
  | .nop => [.implied]

/-- A mnemonic and an operand fit together when the table has a row for the mnemonic in the operand's mode. -/
def formWellFormed (m : Mnemonic) (o : Operand) : Bool := m.modes.contains o.mode

/-- An instruction is well formed when its mnemonic has its address mode. -/
def Instr.wellFormed (i : Instr) : Bool := formWellFormed i.mnemonic i.operand

/-- A range of the memory map holds at least one address. -/
def Region.wellFormed (r : Region) : Bool := r.first ≤ r.last

/-- Two ranges of the memory map have no address in common. -/
def Region.disjoint (r t : Region) : Bool := r.last < t.first || t.last < r.first

/-- The memory map's ranges are not empty and no two of them overlap, so their order does not matter. -/
def regionsWellFormed : List Region → Bool
  | [] => true
  | r :: rs => r.wellFormed && rs.all r.disjoint && regionsWellFormed rs

/-- A platform is well formed when its memory map is. -/
def Platform.wellFormed (p : Platform) : Bool := regionsWellFormed p.regions

end Sys2Proof
end

