-- ==== Sys2Proof/Decode.lean ====
section
/-! DEFINITION. Decoding and encoding, from 30_encoding.md: the opcode byte alone selects the row (R82, R104), the operand
bytes follow it low byte first (R80, R81, R83), the 105 bytes of no row are refused by name (R100). The encoder is written
from the same table, separately from the decoder's map. -/

namespace Sys2Proof

/-- `hi8 ++ lo8`: the 16-bit value `hi8 * 256 + lo8` (00_scope.md R4). -/
def joinBytes (hi lo : Byte) : Word := BitVec.ofNat 16 (hi.toNat * 256 + lo.toNat)

/-- Bits 7:0 of an address. -/
def loByte (w : Word) : Byte := BitVec.ofNat 8 w.toNat

/-- Bits 15:8 of an address. -/
def hiByte (w : Word) : Byte := BitVec.ofNat 8 (w.toNat / 256)

/-- A row's format and what instruction it makes of its operand bytes (30_encoding.md R81: F1, F2, F3). -/
inductive Form where
  | bare (i : Instr)
  | withByte (f : Byte → Instr)
  | withWord (f : Word → Instr)

/-- The defined opcodes 0x00 to 0x0F (30_encoding.md R99, the grid's row 0x). -/
def opcodes0x : List (Nat × Form) :=
  [(0x00, .bare .brk), (0x01, .withByte .oraIndirectX), (0x05, .withByte .oraZeroPage), (0x06, .withByte .aslZeroPage),
   (0x08, .bare .php), (0x09, .withByte .oraImmediate), (0x0A, .bare .aslAccumulator), (0x0D, .withWord .oraAbsolute),
   (0x0E, .withWord .aslAbsolute)]

/-- The defined opcodes 0x10 to 0x1F (30_encoding.md R99, the grid's row 1x). -/
def opcodes1x : List (Nat × Form) :=
  [(0x10, .withByte .bpl), (0x11, .withByte .oraIndirectY), (0x15, .withByte .oraZeroPageX),
   (0x16, .withByte .aslZeroPageX), (0x18, .bare .clc), (0x19, .withWord .oraAbsoluteY), (0x1D, .withWord .oraAbsoluteX),
   (0x1E, .withWord .aslAbsoluteX)]

/-- The defined opcodes 0x20 to 0x2F (30_encoding.md R99, the grid's row 2x). -/
def opcodes2x : List (Nat × Form) :=
  [(0x20, .withWord .jsr), (0x21, .withByte .andIndirectX), (0x24, .withByte .bitZeroPage), (0x25, .withByte .andZeroPage),
   (0x26, .withByte .rolZeroPage), (0x28, .bare .plp), (0x29, .withByte .andImmediate), (0x2A, .bare .rolAccumulator),
   (0x2C, .withWord .bitAbsolute), (0x2D, .withWord .andAbsolute), (0x2E, .withWord .rolAbsolute)]

/-- The defined opcodes 0x30 to 0x3F (30_encoding.md R99, the grid's row 3x). -/
def opcodes3x : List (Nat × Form) :=
  [(0x30, .withByte .bmi), (0x31, .withByte .andIndirectY), (0x35, .withByte .andZeroPageX),
   (0x36, .withByte .rolZeroPageX), (0x38, .bare .sec), (0x39, .withWord .andAbsoluteY), (0x3D, .withWord .andAbsoluteX),
   (0x3E, .withWord .rolAbsoluteX)]

/-- The defined opcodes 0x40 to 0x4F (30_encoding.md R99, the grid's row 4x). -/
def opcodes4x : List (Nat × Form) :=
  [(0x40, .bare .rti), (0x41, .withByte .eorIndirectX), (0x45, .withByte .eorZeroPage), (0x46, .withByte .lsrZeroPage),
   (0x48, .bare .pha), (0x49, .withByte .eorImmediate), (0x4A, .bare .lsrAccumulator), (0x4C, .withWord .jmpAbsolute),
   (0x4D, .withWord .eorAbsolute), (0x4E, .withWord .lsrAbsolute)]

/-- The defined opcodes 0x50 to 0x5F (30_encoding.md R99, the grid's row 5x). -/
def opcodes5x : List (Nat × Form) :=
  [(0x50, .withByte .bvc), (0x51, .withByte .eorIndirectY), (0x55, .withByte .eorZeroPageX),
   (0x56, .withByte .lsrZeroPageX), (0x58, .bare .cli), (0x59, .withWord .eorAbsoluteY), (0x5D, .withWord .eorAbsoluteX),
   (0x5E, .withWord .lsrAbsoluteX)]

/-- The defined opcodes 0x60 to 0x6F (30_encoding.md R99, the grid's row 6x). -/
def opcodes6x : List (Nat × Form) :=
  [(0x60, .bare .rts), (0x61, .withByte .adcIndirectX), (0x65, .withByte .adcZeroPage), (0x66, .withByte .rorZeroPage),
   (0x68, .bare .pla), (0x69, .withByte .adcImmediate), (0x6A, .bare .rorAccumulator), (0x6C, .withWord .jmpIndirect),
   (0x6D, .withWord .adcAbsolute), (0x6E, .withWord .rorAbsolute)]

/-- The defined opcodes 0x70 to 0x7F (30_encoding.md R99, the grid's row 7x). -/
def opcodes7x : List (Nat × Form) :=
  [(0x70, .withByte .bvs), (0x71, .withByte .adcIndirectY), (0x75, .withByte .adcZeroPageX),
   (0x76, .withByte .rorZeroPageX), (0x78, .bare .sei), (0x79, .withWord .adcAbsoluteY), (0x7D, .withWord .adcAbsoluteX),
   (0x7E, .withWord .rorAbsoluteX)]

/-- The defined opcodes 0x80 to 0x8F (30_encoding.md R99, the grid's row 8x). -/
def opcodes8x : List (Nat × Form) :=
  [(0x81, .withByte .staIndirectX), (0x84, .withByte .styZeroPage), (0x85, .withByte .staZeroPage),
   (0x86, .withByte .stxZeroPage), (0x88, .bare .dey), (0x8A, .bare .txa), (0x8C, .withWord .styAbsolute),
   (0x8D, .withWord .staAbsolute), (0x8E, .withWord .stxAbsolute)]

/-- The defined opcodes 0x90 to 0x9F (30_encoding.md R99, the grid's row 9x). -/
def opcodes9x : List (Nat × Form) :=
  [(0x90, .withByte .bcc), (0x91, .withByte .staIndirectY), (0x94, .withByte .styZeroPageX),
   (0x95, .withByte .staZeroPageX), (0x96, .withByte .stxZeroPageY), (0x98, .bare .tya), (0x99, .withWord .staAbsoluteY),
   (0x9A, .bare .txs), (0x9D, .withWord .staAbsoluteX)]

/-- The defined opcodes 0xA0 to 0xAF (30_encoding.md R99, the grid's row Ax). -/
def opcodesAx : List (Nat × Form) :=
  [(0xA0, .withByte .ldyImmediate), (0xA1, .withByte .ldaIndirectX), (0xA2, .withByte .ldxImmediate),
   (0xA4, .withByte .ldyZeroPage), (0xA5, .withByte .ldaZeroPage), (0xA6, .withByte .ldxZeroPage), (0xA8, .bare .tay),
   (0xA9, .withByte .ldaImmediate), (0xAA, .bare .tax), (0xAC, .withWord .ldyAbsolute), (0xAD, .withWord .ldaAbsolute),
   (0xAE, .withWord .ldxAbsolute)]

/-- The defined opcodes 0xB0 to 0xBF (30_encoding.md R99, the grid's row Bx). -/
def opcodesBx : List (Nat × Form) :=
  [(0xB0, .withByte .bcs), (0xB1, .withByte .ldaIndirectY), (0xB4, .withByte .ldyZeroPageX),
   (0xB5, .withByte .ldaZeroPageX), (0xB6, .withByte .ldxZeroPageY), (0xB8, .bare .clv), (0xB9, .withWord .ldaAbsoluteY),
   (0xBA, .bare .tsx), (0xBC, .withWord .ldyAbsoluteX), (0xBD, .withWord .ldaAbsoluteX), (0xBE, .withWord .ldxAbsoluteY)]

/-- The defined opcodes 0xC0 to 0xCF (30_encoding.md R99, the grid's row Cx). -/
def opcodesCx : List (Nat × Form) :=
  [(0xC0, .withByte .cpyImmediate), (0xC1, .withByte .cmpIndirectX), (0xC4, .withByte .cpyZeroPage),
   (0xC5, .withByte .cmpZeroPage), (0xC6, .withByte .decZeroPage), (0xC8, .bare .iny), (0xC9, .withByte .cmpImmediate),
   (0xCA, .bare .dex), (0xCC, .withWord .cpyAbsolute), (0xCD, .withWord .cmpAbsolute), (0xCE, .withWord .decAbsolute)]

/-- The defined opcodes 0xD0 to 0xDF (30_encoding.md R99, the grid's row Dx). -/
def opcodesDx : List (Nat × Form) :=
  [(0xD0, .withByte .bne), (0xD1, .withByte .cmpIndirectY), (0xD5, .withByte .cmpZeroPageX),
   (0xD6, .withByte .decZeroPageX), (0xD8, .bare .cld), (0xD9, .withWord .cmpAbsoluteY), (0xDD, .withWord .cmpAbsoluteX),
   (0xDE, .withWord .decAbsoluteX)]

/-- The defined opcodes 0xE0 to 0xEF (30_encoding.md R99, the grid's row Ex). -/
def opcodesEx : List (Nat × Form) :=
  [(0xE0, .withByte .cpxImmediate), (0xE1, .withByte .sbcIndirectX), (0xE4, .withByte .cpxZeroPage),
   (0xE5, .withByte .sbcZeroPage), (0xE6, .withByte .incZeroPage), (0xE8, .bare .inx), (0xE9, .withByte .sbcImmediate),
   (0xEA, .bare .nop), (0xEC, .withWord .cpxAbsolute), (0xED, .withWord .sbcAbsolute), (0xEE, .withWord .incAbsolute)]

/-- The defined opcodes 0xF0 to 0xFF (30_encoding.md R99, the grid's row Fx). -/
def opcodesFx : List (Nat × Form) :=
  [(0xF0, .withByte .beq), (0xF1, .withByte .sbcIndirectY), (0xF5, .withByte .sbcZeroPageX),
   (0xF6, .withByte .incZeroPageX), (0xF8, .bare .sed), (0xF9, .withWord .sbcAbsoluteY), (0xFD, .withWord .sbcAbsoluteX),
   (0xFE, .withWord .incAbsoluteX)]

/-- The opcode map: 151 rows in the 16 rows of the grid, by the opcode's high nibble (30_encoding.md R99). -/
def opcodeGrid : List (List (Nat × Form)) :=
  [opcodes0x, opcodes1x, opcodes2x, opcodes3x, opcodes4x, opcodes5x, opcodes6x, opcodes7x,
   opcodes8x, opcodes9x, opcodesAx, opcodesBx, opcodesCx, opcodesDx, opcodesEx, opcodesFx]

/-- The row of an opcode in a list of rows, if it has one. -/
def findRow (op : Nat) : List (Nat × Form) → Option Form
  | [] => none
  | (k, f) :: rest => if k = op then some f else findRow op rest

/-- The row an opcode byte selects; none for the 105 undefined bytes (30_encoding.md R100, R104). -/
def formOf (op : Byte) : Option Form := findRow op.toNat (opcodeGrid.getD (op.toNat / 16) [])

/-- Why a sequence of bytes does not decode. -/
inductive DecodeError where
  /-- The first byte is one of the 105 that select no instruction (30_encoding.md R100). -/
  | undefinedOpcode (op : Byte)
  /-- The sequence ends before the instruction's last byte. -/
  | truncated
  deriving DecidableEq, Repr

/-- The instruction a sequence of bytes begins with, and the bytes after it (30_encoding.md R83, R104). -/
def decode : List Byte → Except DecodeError (Instr × List Byte)
  | [] => .error .truncated
  | op :: rest =>
    match formOf op, rest with
    | none, _ => .error (.undefinedOpcode op)
    | some (.bare i), rest => .ok (i, rest)
    | some (.withByte f), b :: rest => .ok (f b, rest)
    | some (.withWord f), lo :: hi :: rest => .ok (f (joinBytes hi lo), rest)
    | some _, _ => .error .truncated

/-- Byte `k` of an instruction whose bits are `w`, its first byte in bits 7:0. -/
def byteOfBits (w k : Nat) : Byte := BitVec.ofNat 8 (w >>> (8 * k))

/-- The instruction the decoder reads from an instruction whose low `nbits` bits are those of `w`, every bit above them 0:
the bytes are laid out first byte at the lowest address, as 30_encoding.md R80 says. -/
def decodeTableWord (nbits w : Nat) : Option Instr :=
  let bits := w % 2 ^ nbits
  match decode [byteOfBits bits 0, byteOfBits bits 1, byteOfBits bits 2] with
  | .ok (i, _) => some i
  | .error _ => none

/-- The bytes of an instruction, opcode first, a 16-bit operand low byte first (30_encoding.md R81, R83, R99). -/
def encode : Instr → List Byte
  | .adcImmediate v => [0x69, v]
  | .adcZeroPage zp => [0x65, zp]
  | .adcZeroPageX zp => [0x75, zp]
  | .adcAbsolute addr => [0x6D, loByte addr, hiByte addr]
  | .adcAbsoluteX addr => [0x7D, loByte addr, hiByte addr]
  | .adcAbsoluteY addr => [0x79, loByte addr, hiByte addr]
  | .adcIndirectX zp => [0x61, zp]
  | .adcIndirectY zp => [0x71, zp]
  | .sbcImmediate v => [0xE9, v]
  | .sbcZeroPage zp => [0xE5, zp]
  | .sbcZeroPageX zp => [0xF5, zp]
  | .sbcAbsolute addr => [0xED, loByte addr, hiByte addr]
  | .sbcAbsoluteX addr => [0xFD, loByte addr, hiByte addr]
  | .sbcAbsoluteY addr => [0xF9, loByte addr, hiByte addr]
  | .sbcIndirectX zp => [0xE1, zp]
  | .sbcIndirectY zp => [0xF1, zp]
  | .cmpImmediate v => [0xC9, v]
  | .cmpZeroPage zp => [0xC5, zp]
  | .cmpZeroPageX zp => [0xD5, zp]
  | .cmpAbsolute addr => [0xCD, loByte addr, hiByte addr]
  | .cmpAbsoluteX addr => [0xDD, loByte addr, hiByte addr]
  | .cmpAbsoluteY addr => [0xD9, loByte addr, hiByte addr]
  | .cmpIndirectX zp => [0xC1, zp]
  | .cmpIndirectY zp => [0xD1, zp]
  | .cpxImmediate v => [0xE0, v]
  | .cpxZeroPage zp => [0xE4, zp]
  | .cpxAbsolute addr => [0xEC, loByte addr, hiByte addr]
  | .cpyImmediate v => [0xC0, v]
  | .cpyZeroPage zp => [0xC4, zp]
  | .cpyAbsolute addr => [0xCC, loByte addr, hiByte addr]
  | .andImmediate v => [0x29, v]
  | .andZeroPage zp => [0x25, zp]
  | .andZeroPageX zp => [0x35, zp]
  | .andAbsolute addr => [0x2D, loByte addr, hiByte addr]
  | .andAbsoluteX addr => [0x3D, loByte addr, hiByte addr]
  | .andAbsoluteY addr => [0x39, loByte addr, hiByte addr]
  | .andIndirectX zp => [0x21, zp]
  | .andIndirectY zp => [0x31, zp]
  | .eorImmediate v => [0x49, v]
  | .eorZeroPage zp => [0x45, zp]
  | .eorZeroPageX zp => [0x55, zp]
  | .eorAbsolute addr => [0x4D, loByte addr, hiByte addr]
  | .eorAbsoluteX addr => [0x5D, loByte addr, hiByte addr]
  | .eorAbsoluteY addr => [0x59, loByte addr, hiByte addr]
  | .eorIndirectX zp => [0x41, zp]
  | .eorIndirectY zp => [0x51, zp]
  | .oraImmediate v => [0x09, v]
  | .oraZeroPage zp => [0x05, zp]
  | .oraZeroPageX zp => [0x15, zp]
  | .oraAbsolute addr => [0x0D, loByte addr, hiByte addr]
  | .oraAbsoluteX addr => [0x1D, loByte addr, hiByte addr]
  | .oraAbsoluteY addr => [0x19, loByte addr, hiByte addr]
  | .oraIndirectX zp => [0x01, zp]
  | .oraIndirectY zp => [0x11, zp]
  | .bitZeroPage zp => [0x24, zp]
  | .bitAbsolute addr => [0x2C, loByte addr, hiByte addr]
  | .aslZeroPage zp => [0x06, zp]
  | .aslZeroPageX zp => [0x16, zp]
  | .aslAbsolute addr => [0x0E, loByte addr, hiByte addr]
  | .aslAbsoluteX addr => [0x1E, loByte addr, hiByte addr]
  | .aslAccumulator => [0x0A]
  | .lsrZeroPage zp => [0x46, zp]
  | .lsrZeroPageX zp => [0x56, zp]
  | .lsrAbsolute addr => [0x4E, loByte addr, hiByte addr]
  | .lsrAbsoluteX addr => [0x5E, loByte addr, hiByte addr]
  | .lsrAccumulator => [0x4A]
  | .rolZeroPage zp => [0x26, zp]
  | .rolZeroPageX zp => [0x36, zp]
  | .rolAbsolute addr => [0x2E, loByte addr, hiByte addr]
  | .rolAbsoluteX addr => [0x3E, loByte addr, hiByte addr]
  | .rolAccumulator => [0x2A]
  | .rorZeroPage zp => [0x66, zp]
  | .rorZeroPageX zp => [0x76, zp]
  | .rorAbsolute addr => [0x6E, loByte addr, hiByte addr]
  | .rorAbsoluteX addr => [0x7E, loByte addr, hiByte addr]
  | .rorAccumulator => [0x6A]
  | .bcc disp => [0x90, disp]
  | .bcs disp => [0xB0, disp]
  | .beq disp => [0xF0, disp]
  | .bmi disp => [0x30, disp]
  | .bne disp => [0xD0, disp]
  | .bpl disp => [0x10, disp]
  | .bvc disp => [0x50, disp]
  | .bvs disp => [0x70, disp]
  | .clc => [0x18]
  | .cld => [0xD8]
  | .cli => [0x58]
  | .clv => [0xB8]
  | .sec => [0x38]
  | .sed => [0xF8]
  | .sei => [0x78]
  | .decZeroPage zp => [0xC6, zp]
  | .decZeroPageX zp => [0xD6, zp]
  | .decAbsolute addr => [0xCE, loByte addr, hiByte addr]
  | .decAbsoluteX addr => [0xDE, loByte addr, hiByte addr]
  | .dex => [0xCA]
  | .dey => [0x88]
  | .incZeroPage zp => [0xE6, zp]
  | .incZeroPageX zp => [0xF6, zp]
  | .incAbsolute addr => [0xEE, loByte addr, hiByte addr]
  | .incAbsoluteX addr => [0xFE, loByte addr, hiByte addr]
  | .inx => [0xE8]
  | .iny => [0xC8]
  | .jmpAbsolute addr => [0x4C, loByte addr, hiByte addr]
  | .jmpIndirect ptr => [0x6C, loByte ptr, hiByte ptr]
  | .jsr addr => [0x20, loByte addr, hiByte addr]
  | .rts => [0x60]
  | .ldaImmediate v => [0xA9, v]
  | .ldaZeroPage zp => [0xA5, zp]
  | .ldaZeroPageX zp => [0xB5, zp]
  | .ldaAbsolute addr => [0xAD, loByte addr, hiByte addr]
  | .ldaAbsoluteX addr => [0xBD, loByte addr, hiByte addr]
  | .ldaAbsoluteY addr => [0xB9, loByte addr, hiByte addr]
  | .ldaIndirectX zp => [0xA1, zp]
  | .ldaIndirectY zp => [0xB1, zp]
  | .ldxImmediate v => [0xA2, v]
  | .ldxZeroPage zp => [0xA6, zp]
  | .ldxZeroPageY zp => [0xB6, zp]
  | .ldxAbsolute addr => [0xAE, loByte addr, hiByte addr]
  | .ldxAbsoluteY addr => [0xBE, loByte addr, hiByte addr]
  | .ldyImmediate v => [0xA0, v]
  | .ldyZeroPage zp => [0xA4, zp]
  | .ldyZeroPageX zp => [0xB4, zp]
  | .ldyAbsolute addr => [0xAC, loByte addr, hiByte addr]
  | .ldyAbsoluteX addr => [0xBC, loByte addr, hiByte addr]
  | .staZeroPage zp => [0x85, zp]
  | .staZeroPageX zp => [0x95, zp]
  | .staAbsolute addr => [0x8D, loByte addr, hiByte addr]
  | .staAbsoluteX addr => [0x9D, loByte addr, hiByte addr]
  | .staAbsoluteY addr => [0x99, loByte addr, hiByte addr]
  | .staIndirectX zp => [0x81, zp]
  | .staIndirectY zp => [0x91, zp]
  | .stxZeroPage zp => [0x86, zp]
  | .stxZeroPageY zp => [0x96, zp]
  | .stxAbsolute addr => [0x8E, loByte addr, hiByte addr]
  | .styZeroPage zp => [0x84, zp]
  | .styZeroPageX zp => [0x94, zp]
  | .styAbsolute addr => [0x8C, loByte addr, hiByte addr]
  | .pha => [0x48]
  | .php => [0x08]
  | .pla => [0x68]
  | .plp => [0x28]
  | .tax => [0xAA]
  | .tay => [0xA8]
  | .tsx => [0xBA]
  | .txa => [0x8A]
  | .txs => [0x9A]
  | .tya => [0x98]
  | .brk => [0x00]
  | .rti => [0x40]
  | .nop => [0xEA]

end Sys2Proof
end

