-- ==== Sys2Proof/Machine/State.lean ====
section
/-! DEFINITION. The state of the 6502 (10_state.md), the two reasons-to-stop types, and the state after reset. Plain data. -/

namespace Sys2Proof.Machine

open Sys2Proof

/-- The six flags of the status register P (10_state.md R20, R28). Bits 5 and 4 of the status byte are not state (R35). -/
structure Flags where
  /-- Negative (R29). -/
  n : Bool
  /-- Overflow (R34). -/
  v : Bool
  /-- Decimal mode (R33). -/
  d : Bool
  /-- Interrupt disable (R32). -/
  i : Bool
  /-- Zero (R30). -/
  z : Bool
  /-- Carry (R31). -/
  c : Bool
  deriving DecidableEq, Repr

/-- What the environment does at one instruction boundary (10_state.md R39, 92 D13; 60_exceptions.md R221, R231). -/
structure StepInput where
  /-- reset_line: the Reset sequence is performed (R216). -/
  resetLine : Bool
  /-- nmi_edge: a high-to-low edge on NMI since the last boundary (R39 (a)). -/
  nmiEdge : Bool
  /-- irq_line: the level of the IRQ input, true when asserted (R39 (b)). -/
  irqLine : Bool
  /-- so_edge: a high-to-low edge on SO since the last boundary (R39 (d)). -/
  soEdge : Bool
  /-- The chip's choice of R221: an interrupt whose condition holds at this boundary is taken. -/
  accept : Bool
  deriving DecidableEq, Repr

/-- All lines quiet: the default of 92 D13. -/
def StepInput.quiet : StepInput := ⟨false, false, false, false, false⟩

/-- One access of the core to a device address (20_memory.md R52, R61). -/
inductive BusEvent where
  /-- A read, with the address and the value the environment answered. -/
  | read (addr : Word) (v : Byte)
  /-- A write, with the address and the value written. -/
  | write (addr : Word) (v : Byte)
  deriving DecidableEq, Repr

/-- The 64 KiB of 20_memory.md R50, as address and byte pairs in the canonical form of `Memory.wf` (Machine/Ops.lean). -/
abbrev Memory := List Host.Cell

/-- The machine: the registers and flags of 10_state.md R20, the hidden state of R39, the memory of 20_memory.md R50, the
platform's parameters and the environment's inputs to come (00_scope.md R3), and three fields of the model's own. -/
structure State where
  /-- The accumulator (R21). -/
  a : Byte
  /-- Index register X (R22). -/
  x : Byte
  /-- Index register Y (R23). -/
  y : Byte
  /-- The stack pointer: low byte of the address of the next free stack byte (R24). -/
  s : Byte
  /-- The program counter: between instructions, the address of the next opcode byte (R25). -/
  pc : Word
  /-- The processor status register: six flags (R20, R28). -/
  p : Flags
  /-- The NMI edge latch (R39 (a)). -/
  nmiPending : Bool
  /-- The model's own: the boundary is the one right after SEI or PLP took I from 0 to 1 (60_exceptions.md R221). -/
  irqWindow : Bool
  /-- Memory contents, ROM's included. -/
  mem : Memory
  /-- MEMORY_MAP, JMP_IND_PAGE_WRAP, INT_CLEARS_D, DECIMAL_MODE (00_scope.md R3). -/
  platform : Platform
  /-- The environment's lines at the coming boundaries, the next one first; quiet when the list is used up. -/
  inputs : List StepInput
  /-- The answers devices will give to the coming reads, the next one first (20_memory.md R52). -/
  answers : List Byte
  /-- The model's own: the accesses made to devices so far, the last one first. -/
  busLog : List BusEvent
  /-- The model's own: how many free bytes have been drawn (Config.unspecifiedByte). -/
  freeCount : Nat
  deriving DecidableEq, Repr

/-- The reasons for a fault: there are none. The hardware raises no synchronous fault (60_exceptions.md R210) and a step has
no fault outcome (00_scope.md R10), so nobody raises one. -/
inductive Fault where
  deriving DecidableEq, Repr

/-- The reasons the model stops with a refusal. -/
inductive Refusal where
  /-- An instruction that has no meaning yet, raised by `exec`; no arm of `exec` raises it. Safe. -/
  | notModelled (mnemonic : String)
  /-- The byte fetched as an opcode is one of the 105 that select no instruction, raised by `step`
  (30_encoding.md R100, 92 D5: `refuse(UndefinedOpcode(byte0, pc))`). Safe: nothing is provable past it. -/
  | undefinedOpcode (byte0 : Byte) (pc : Word)
  /-- D is 1 and the platform's DECIMAL_MODE is `refuse`, raised by the meanings of ADC and SBC (00_scope.md R6,
  40_arithmetic.md R111, R113, 92 D11). Safe: nothing is provable past it. The default platform never raises it. -/
  | decimalMode
  deriving DecidableEq, Repr

/-- The machine after the Reset sequence (10_state.md R40, 70_reset_and_hazards.md R240): I = 1, no NMI pending, PC the word at
0xFFFC of a memory that lists nothing. DESIGN CHOICE (assumptions 1 to 4), unsafe: R40 leaves A, X, Y, S, N, V, D, Z, C and
memory unspecified; they are zero here, and no statement rests on it. -/
def State.reset : State where
  a := 0
  x := 0
  y := 0
  s := 0
  pc := 0
  p := ⟨false, false, false, true, false, false⟩
  nmiPending := false
  irqWindow := false
  mem := []
  platform := Platform.standard
  inputs := []
  answers := []
  busLog := []
  freeCount := 0

end Sys2Proof.Machine
end

