-- ==== Sys2Proof/Machine/Flags.lean ====
section
/-! DEFINITION. Every flag computation of the spec: SetNZ (00_scope.md R7), the status byte (10_state.md R36, R37), the
arithmetic helpers (40_arithmetic.md R110 to R114), the shifts (42_shift_rotate.md R130 to R133). -/

namespace Sys2Proof.Machine

open Sys2Proof

/-- SetNZ (00_scope.md R7): N is bit 7, Z says the byte is 0. -/
def setNZ (v : Byte) (p : Flags) : Flags := { p with n := v.getLsbD 7, z := v == 0 }

/-- PackP (10_state.md R36): the status byte pushed, bit 5 = 1 and bit 4 = `b`. -/
def packP (b : Bool) (p : Flags) : Byte :=
  BitVec.ofNat 8 (p.n.toNat * 128 + p.v.toNat * 64 + 1 * 32 + b.toNat * 16 + p.d.toNat * 8 + p.i.toNat * 4 +
    p.z.toNat * 2 + p.c.toNat * 1)

/-- UnpackP (10_state.md R37): bits 5 and 4 are ignored. -/
def unpackP (v : Byte) : Flags :=
  { n := v.getLsbD 7, v := v.getLsbD 6, d := v.getLsbD 3, i := v.getLsbD 2, z := v.getLsbD 1, c := v.getLsbD 0 }

/-- What an addition or subtraction gives: the byte and the four flags (40_arithmetic.md R110 to R113). -/
structure AluResult where
  r : Byte
  c : Bool
  v : Bool
  n : Bool
  z : Bool
  deriving DecidableEq, Repr

/-- AddBin (40_arithmetic.md R110). -/
def addBin (a m : Byte) (c : Bool) : AluResult :=
  let t := a.toNat + m.toNat + c.toNat
  let r : Byte := BitVec.ofNat 8 t
  { r := r
    c := decide (256 ≤ t)
    v := (a ^^^ r) &&& (m ^^^ r) &&& 0x80 != 0
    n := r.getLsbD 7
    z := r == 0 }

/-- AddDec (40_arithmetic.md R111): N and V before the high digit is adjusted, Z from the binary sum. -/
def addDec (a m : Byte) (c : Bool) : AluResult :=
  let al0 := (a &&& 0x0F).toNat + (m &&& 0x0F).toNat + c.toNat
  let al := if 0x0A ≤ al0 then ((al0 + 0x06) &&& 0x0F) + 0x10 else al0
  let s := (a &&& 0xF0).toNat + (m &&& 0xF0).toNat + al
  let s' := if 0xA0 ≤ s then s + 0x60 else s
  { r := BitVec.ofNat 8 s'
    c := decide (0x100 ≤ s')
    v := (a.toNat ^^^ s) &&& (m.toNat ^^^ s) &&& 0x80 != 0
    n := s.testBit 7
    z := (a.toNat + m.toNat + c.toNat) % 256 == 0 }

/-- SubBin (40_arithmetic.md R112): C is the complement of the borrow. -/
def subBin (a m : Byte) (c : Bool) : AluResult :=
  let t : Int := (a.toNat : Int) - (m.toNat : Int) - (1 - (c.toNat : Int))
  let r : Byte := BitVec.ofInt 8 t
  { r := r
    c := decide (0 ≤ t)
    v := (a ^^^ m) &&& (a ^^^ r) &&& 0x80 != 0
    n := r.getLsbD 7
    z := r == 0 }

/-- SubDec (40_arithmetic.md R113): the four flags are the binary ones. The low four bits of a two's-complement value are its
remainder by 16. -/
def subDec (a m : Byte) (c : Bool) : AluResult :=
  let al0 : Int := ((a &&& 0x0F).toNat : Int) - ((m &&& 0x0F).toNat : Int) + (c.toNat : Int) - 1
  let al : Int := if al0 < 0 then (al0 - 0x06) % 0x10 - 0x10 else al0
  let s : Int := ((a &&& 0xF0).toNat : Int) - ((m &&& 0xF0).toNat : Int) + al
  let s' : Int := if s < 0 then s - 0x60 else s
  { subBin a m c with r := BitVec.ofInt 8 s' }

/-- The addition ADC performs: D chooses decimal or binary (40_arithmetic.md R115). -/
def addByMode (d : Bool) (a m : Byte) (c : Bool) : AluResult := if d then addDec a m c else addBin a m c

/-- The subtraction SBC performs: D chooses decimal or binary (40_arithmetic.md R116). -/
def subByMode (d : Bool) (a m : Byte) (c : Bool) : AluResult := if d then subDec a m c else subBin a m c

/-- The flags after an addition or subtraction: N, V, Z, C from the result, D and I kept (40_arithmetic.md R115, R116). -/
def setArith (r : AluResult) (p : Flags) : Flags := { p with n := r.n, v := r.v, z := r.z, c := r.c }

/-- Compare (40_arithmetic.md R114): C and Z compare unsigned, N is bit 7 of the difference. -/
def compareFlags (reg m : Byte) (p : Flags) : Flags :=
  { p with c := decide (m.toNat ≤ reg.toNat), z := reg == m, n := (reg - m).getLsbD 7 }

/-- BIT's flags (41_logic.md R128): Z from A and M, N and V from bits 7 and 6 of M. -/
def bitFlags (a m : Byte) (p : Flags) : Flags := { p with z := a &&& m == 0, n := m.getLsbD 7, v := m.getLsbD 6 }

/-- ASL (42_shift_rotate.md R130): the byte shifted left once, and the flags. -/
def aslByte (v : Byte) (p : Flags) : Byte × Flags :=
  let r := v <<< 1
  (r, setNZ r { p with c := v.getLsbD 7 })

/-- LSR (42_shift_rotate.md R131): the byte shifted right once, N = 0. -/
def lsrByte (v : Byte) (p : Flags) : Byte × Flags :=
  let r := v >>> 1
  (r, { p with c := v.getLsbD 0, n := false, z := r == 0 })

/-- ROL (42_shift_rotate.md R132): left through the carry. -/
def rolByte (v : Byte) (p : Flags) : Byte × Flags :=
  let r := v <<< 1 ||| BitVec.ofNat 8 p.c.toNat
  (r, setNZ r { p with c := v.getLsbD 7 })

/-- ROR (42_shift_rotate.md R133): right through the carry. -/
def rorByte (v : Byte) (p : Flags) : Byte × Flags :=
  let r := v >>> 1 ||| BitVec.ofNat 8 (p.c.toNat * 128)
  (r, setNZ r { p with c := v.getLsbD 0 })

/-- DEC's byte and flags (45_incdec.md R160): one less modulo 256. -/
def decByte (v : Byte) (p : Flags) : Byte × Flags := (v - 1, setNZ (v - 1) p)

/-- INC's byte and flags (45_incdec.md R163): one more modulo 256. -/
def incByte (v : Byte) (p : Flags) : Byte × Flags := (v + 1, setNZ (v + 1) p)

end Sys2Proof.Machine
end

