-- ==== Sys2Proof/Machine/Ops.lean ====
section
/-! DEFINITION. The named operations over registers and memory: the memory's canonical form, the bus and the memory map
(20_memory.md R52, R60), 16-bit reads (R54), the stack (R58), the vectors (R59), taking an exception and returning from one
(60_exceptions.md R213 to R216, R220). -/

namespace Sys2Proof

/-- What a list of ranges puts at an address: the first range that holds it; RAM where none does. -/
def regionKindAt (addr : Word) : List Region → RegionKind
  | [] => .ram
  | r :: rest => if r.first ≤ addr ∧ addr ≤ r.last then r.kind else regionKindAt addr rest

/-- MEMORY_MAP at an address (20_memory.md R52, R60). -/
def Platform.kindAt (p : Platform) (addr : Word) : RegionKind := regionKindAt addr p.regions

/-- A region whose reads give the memory's byte: RAM or ROM. -/
def RegionKind.isMemory : RegionKind → Bool
  | .ram | .rom => true
  | .device | .openBus => false

end Sys2Proof

namespace Sys2Proof.Machine

open Sys2Proof

/-! ### Memory -/

/-- What a byte of memory that nothing has written reads as. DESIGN CHOICE (assumption 3), unsafe: the spec leaves it
unspecified (10_state.md R40, 20_memory.md R52). -/
def unlistedByte : Byte := 0

/-- The number of addresses (20_memory.md R50). -/
def addressSpace : Nat := 65536

/-- The byte at an address. -/
def Memory.read : Memory → Nat → Byte
  | [], _ => unlistedByte
  | (k, b) :: rest, a => if k = a then b else Memory.read rest a

/-- The memory with an address unlisted. -/
def Memory.erase : Memory → Nat → Memory
  | [], _ => []
  | (k, b) :: rest, a => if k = a then Memory.erase rest a else (k, b) :: Memory.erase rest a

/-- The memory with a byte listed in front of the first higher address. -/
def Memory.insert : Memory → Nat → Byte → Memory
  | [], a, v => [(a, v)]
  | (k, b) :: rest, a, v => if a < k then (a, v) :: (k, b) :: rest else (k, b) :: Memory.insert rest a v

/-- The memory with one byte changed: listed, unless it is what an unlisted address reads as. -/
def Memory.write (m : Memory) (a : Nat) (v : Byte) : Memory :=
  if v = unlistedByte then Memory.erase m a else Memory.insert (Memory.erase m a) a v

/-- Every listed address is at least `lo` and inside the address space, addresses rise strictly, and no listed byte is what
an unlisted address reads as. -/
def Memory.wfFrom : Nat → Memory → Bool
  | _, [] => true
  | lo, (k, b) :: rest => decide (lo ≤ k) && decide (k < addressSpace) && b != unlistedByte && Memory.wfFrom (k + 1) rest

/-- The canonical form: equal memories are equal lists. -/
def Memory.wf (m : Memory) : Bool := Memory.wfFrom 0 m

/-- The memory's byte at an address, whatever the platform has there: the model's read of one byte, for statements. -/
def State.byteAt (s : State) (addr : Word) : Byte := Memory.read s.mem addr.toNat

/-! ### Register updates -/

/-- Write A. -/
def State.setA (s : State) (v : Byte) : State := { s with a := v }
/-- Write X. -/
def State.setX (s : State) (v : Byte) : State := { s with x := v }
/-- Write Y. -/
def State.setY (s : State) (v : Byte) : State := { s with y := v }
/-- Write S. -/
def State.setS (s : State) (v : Byte) : State := { s with s := v }
/-- Write PC. -/
def State.setPc (s : State) (w : Word) : State := { s with pc := w }
/-- Write the flags. -/
def State.setP (s : State) (p : Flags) : State := { s with p := p }

/-- PC goes to the next instruction in sequence, `n` bytes on, modulo 65536 (10_state.md R26, R27). -/
def State.advance (s : State) (n : Nat) : State := s.setPc (s.pc + BitVec.ofNat 16 n)

/-! ### The bus -/

/-- MemRead (20_memory.md R52): the byte, and the state after the read. RAM and ROM give the memory's byte. A device gives
the environment's next answer, and the access is recorded; with no answer left the value is free. Open bus gives a free value. -/
def State.busRead (s : State) (addr : Word) : Byte × State :=
  match s.platform.kindAt addr with
  | .ram | .rom => (s.byteAt addr, s)
  | .device =>
    match s.answers with
    | v :: rest => (v, { s with answers := rest, busLog := .read addr v :: s.busLog })
    | [] =>
      let v := Config.unspecifiedByte s.freeCount
      (v, { s with busLog := .read addr v :: s.busLog, freeCount := s.freeCount + 1 })
  | .openBus => (Config.unspecifiedByte s.freeCount, { s with freeCount := s.freeCount + 1 })

/-- MemWrite (20_memory.md R52): RAM holds the byte, a device is given it, ROM and open bus ignore it. -/
def State.busWrite (s : State) (addr : Word) (v : Byte) : State :=
  match s.platform.kindAt addr with
  | .ram => { s with mem := Memory.write s.mem addr.toNat v }
  | .device => { s with busLog := .write addr v :: s.busLog }
  | .rom | .openBus => s

/-- Two byte reads, the low byte first, joined (20_memory.md R53, R54). -/
def State.readPair (s : State) (lo hi : Word) : Word × State :=
  let l := s.busRead lo
  let h := l.2.busRead hi
  (joinBytes h.1 l.1, h.2)

/-- A byte as an address in page zero (00_scope.md R4, zext_16). -/
def zeroExtend16 (b : Byte) : Word := joinBytes 0 b

/-- A byte as a signed 16-bit value (00_scope.md R4, sext_16). -/
def signExtend16 (b : Byte) : Word := b.signExtend 16

/-- Read16 (20_memory.md R54). -/
def State.read16 (s : State) (addr : Word) : Word × State := s.readPair addr (addr + 1)

/-- Read16ZP (20_memory.md R54): both bytes from page zero. -/
def State.read16ZP (s : State) (zp : Byte) : Word × State := s.readPair (zeroExtend16 zp) (zeroExtend16 (zp + 1))

/-- Read16Page (20_memory.md R54): both bytes from one page. -/
def State.read16Page (s : State) (addr : Word) : Word × State :=
  s.readPair addr ((addr &&& 0xFF00) ||| ((addr + 1) &&& 0x00FF))

/-! ### The stack -/

/-- The address S stands for: page one (20_memory.md R58). -/
def stackAddr (s : Byte) : Word := joinBytes 0x01 s

/-- Push (20_memory.md R58): store at 0x0100 + S, then S goes down, modulo 256. -/
def State.push (s : State) (v : Byte) : State := (s.busWrite (stackAddr s.s) v).setS (s.s - 1)

/-- Push a 16-bit value high byte first (20_memory.md R53). -/
def State.push16 (s : State) (w : Word) : State := (s.push (hiByte w)).push (loByte w)

/-- Pull (20_memory.md R58): S goes up, modulo 256, then read at 0x0100 + S. -/
def State.pull (s : State) : Byte × State := (s.setS (s.s + 1)).busRead (stackAddr (s.s + 1))

/-- Pull a 16-bit value low byte first (46_jump_subroutine.md R172, 49_system.md R201). -/
def State.pull16 (s : State) : Word × State :=
  let lo := s.pull
  let hi := lo.2.pull
  (joinBytes hi.1 lo.1, hi.2)

/-! ### Exceptions -/

/-- The NMI vector (20_memory.md R59). -/
def vecNmi : Word := 0xFFFA
/-- The Reset vector (20_memory.md R59). -/
def vecReset : Word := 0xFFFC
/-- The vector IRQ and BRK share (20_memory.md R59). -/
def vecIrq : Word := 0xFFFE

/-- The flags an interrupt or reset sequence leaves: I set, D cleared only if INT_CLEARS_D (60_exceptions.md R213; 92 D12
names reset with the other three). -/
def entryFlags (platform : Platform) (p : Flags) : Flags := { p with i := true, d := p.d && !platform.intClearsD }

/-- Go to the address a vector holds (20_memory.md R59). -/
def State.jumpVector (s : State) (vector : Word) : State :=
  let t := s.read16 vector
  t.2.setPc t.1

/-- Interrupt(vector, b, ret), the entry BRK, IRQ and NMI share (60_exceptions.md R213): the return address and the status
byte, flags as they were, go on the stack; I is set; control goes to the vector's address. -/
def State.interrupt (s : State) (vector : Word) (b : Bool) (ret : Word) : State :=
  let pushed := (s.push16 ret).push (packP b s.p)
  (pushed.setP (entryFlags s.platform s.p)).jumpVector vector

/-- NMI entry (60_exceptions.md R215): the latch is cleared; the return address is PC. -/
def State.nmiEntry (s : State) : State := State.interrupt { s with nmiPending := false } vecNmi false s.pc

/-- IRQ entry (60_exceptions.md R214): the return address is PC; nothing is acknowledged. -/
def State.irqEntry (s : State) : State := s.interrupt vecIrq false s.pc

/-- The Reset sequence (60_exceptions.md R216): S goes down by three with nothing written, I is set, the NMI latch is
cleared, control goes to the Reset vector's address; all else is kept. -/
def State.resetSequence (s : State) : State :=
  State.jumpVector
    { s with s := s.s - 3, p := entryFlags s.platform s.p, nmiPending := false }
    vecReset

/-- Return from an exception (60_exceptions.md R220, 49_system.md R201): status byte, then return address, from the stack. -/
def State.returnFromInterrupt (s : State) : State :=
  let status := s.pull
  let ret := status.2.pull16
  (ret.2.setP (unpackP status.1)).setPc ret.1

end Sys2Proof.Machine
end

