-- ==== Sys2Proof/Machine/Boundary.lean ====
section
/-! DEFINITION. What happens at an instruction boundary before anything executes (00_scope.md R10; 10_state.md R39;
60_exceptions.md R214 to R221): the environment's lines are latched, then Reset, NMI, IRQ or an instruction is chosen. -/

namespace Sys2Proof.Machine

open Sys2Proof

/-- The environment's lines at this boundary; quiet when none are given (92 D13). -/
def State.input (s : State) : StepInput := s.inputs.headD StepInput.quiet

/-- The boundary's edges latched: an NMI edge sets the latch (10_state.md R39 (a)), an SO edge sets V (R39 (d)). The inputs of
this boundary are used up. DESIGN CHOICE (assumption 11): both land before the choice of what to do. -/
def State.latched (s : State) : State :=
  { s with
    inputs := s.inputs.tail
    nmiPending := s.nmiPending || s.input.nmiEdge
    p := { s.p with v := s.p.v || s.input.soEdge } }

/-- What a step performs (00_scope.md R10). -/
inductive Action where
  | reset
  | nmi
  | irq
  | instruction
  deriving DecidableEq, Repr

/-- IRQ may be entered: the line is asserted and I is 0 (60_exceptions.md R214), or the boundary is the one right after SEI or
PLP set I (R221). -/
def State.irqCondition (s : State) : Bool := s.input.irqLine && (!s.p.i || s.irqWindow)

/-- The choice at a boundary: Reset first, then NMI, then IRQ (60_exceptions.md R218), the last two only if the chip takes the
interrupt here (the may-rule R221); else an instruction. -/
def State.action (s : State) : Action :=
  if s.input.resetLine then .reset
  else if s.latched.nmiPending && s.input.accept then .nmi
  else if s.irqCondition && s.input.accept then .irq
  else .instruction

/-- The instructions after which R221 admits a late IRQ. -/
def opensIrqWindow (i : Instr) : Bool := i.mnemonic == .sei || i.mnemonic == .plp

/-- The state with the model's note of R221 set: the boundary after it is, or is not, the one right after an instruction that
took I from 0 to 1. -/
def State.setIrqWindow (s : State) (b : Bool) : State := { s with irqWindow := b }

end Sys2Proof.Machine
end

