-- ==== Sys2Proof/Machine/Operands.lean ====
section
/-! DEFINITION. Every operand form: the effective address of each memory mode (30_encoding.md R86 to R93), the operand of a
reading instruction (R84, R85), the read-modify-write of 42_shift_rotate.md R134, the targets of jumps and branches (R89, R94,
R95). Evaluating a mode changes no register (R84); reading a pointer from a device address uses up the platform's answers. -/

namespace Sys2Proof

open Machine

/-- The effective address EA, and the state after the pointer bytes of the two indirect modes are read. -/
def MemMode.address (m : MemMode) (s : State) : Word × State :=
  match m with
  | .zeroPage zp => (zeroExtend16 zp, s)
  | .zeroPageX zp => (zeroExtend16 (zp + s.x), s)
  | .zeroPageY zp => (zeroExtend16 (zp + s.y), s)
  | .absolute addr => (addr, s)
  | .absoluteX addr => (addr + zeroExtend16 s.x, s)
  | .absoluteY addr => (addr + zeroExtend16 s.y, s)
  | .indirectX zp => s.read16ZP (zp + s.x)
  | .indirectY zp =>
    let base := s.read16ZP zp
    (base.1 + zeroExtend16 s.y, base.2)

/-- The operand M in a memory mode, `MemRead(EA, 1)`, and the state after reading it (30_encoding.md R84). -/
def MemMode.load (m : MemMode) (s : State) : Byte × State :=
  let ea := m.address s
  ea.2.busRead ea.1

/-- `MemWrite(EA, 1, v)` in a memory mode (30_encoding.md R84). -/
def MemMode.store (m : MemMode) (v : Byte) (s : State) : State :=
  let ea := m.address s
  ea.2.busWrite ea.1 v

/-- The operand M of a reading instruction: the byte in the instruction, or the byte at EA (30_encoding.md R84, R85). -/
def Source.load (src : Source) (s : State) : Byte × State :=
  match src with
  | .immediate v => (v, s)
  | .memory m => m.load s

/-- Replace the byte at EA, computed once: one read, then one write of the result (20_memory.md R56, 42_shift_rotate.md R134). -/
def MemMode.modify (m : MemMode) (f : Byte → Flags → Byte × Flags) (s : State) : State :=
  let ea := m.address s
  let old := ea.2.busRead ea.1
  let new := f old.1 s.p
  (old.2.busWrite ea.1 new.1).setP new.2

/-- Replace A or the byte at EA (42_shift_rotate.md R134). -/
def Target.modify (t : Target) (f : Byte → Flags → Byte × Flags) (s : State) : State :=
  match t with
  | .accumulator => (s.setA (f s.a s.p).1).setP (f s.a s.p).2
  | .memory m => m.modify f s

/-- The length in bytes of an instruction with this operand (30_encoding.md R81). -/
def MemMode.length (m : MemMode) : Nat := m.mode.length

/-- The length in bytes of a reading instruction with this operand (30_encoding.md R81). -/
def Source.length (src : Source) : Nat := src.operand.mode.length

/-- The length in bytes of a shift with this operand (30_encoding.md R81). -/
def Target.length (t : Target) : Nat := t.operand.mode.length

end Sys2Proof

namespace Sys2Proof.Machine

open Sys2Proof

/-- The target of JMP Indirect and the state after the pointer is read: the pointer's page wrap is the platform's
(30_encoding.md R94). -/
def State.indirectTarget (s : State) (ptr : Word) : Word × State :=
  if s.platform.jmpIndPageWrap then s.read16Page ptr else s.read16 ptr

/-- The target of a branch: the displacement from the next instruction (30_encoding.md R95). -/
def branchTarget (npc : Word) (disp : Byte) : Word := npc + signExtend16 disp

end Sys2Proof.Machine
end

