-- ==== Sys2Proof/Machine/Arithmetic.lean ====
section
/-! DEFINITION. ADC, SBC, CMP, CPX, CPY (40_arithmetic.md R115 to R119). A meaning takes the state with PC at the opcode byte and answers the state after the whole instruction. -/

namespace Sys2Proof.Machine

open Sys2Proof

/-- ADC and SBC have no meaning here: D is 1 and DECIMAL_MODE is `refuse` (40_arithmetic.md R111, R113; 92 D11). -/
def State.refusesDecimal (s : State) : Bool := s.p.d && s.platform.decimalMode == .refuse

/-- The state `t` an ADC or SBC at `s` leaves, or the refusal of 00_scope.md R6. -/
def unlessDecimalRefused (s t : State) : Host.Outcome State Fault Refusal :=
  if s.refusesDecimal then .refused .decimalMode else .next t

/-- ADC (40_arithmetic.md R115): A and the flags from the addition D chooses. -/
def adc (src : Source) (s : State) : State :=
  let m := src.load s
  let r := addByMode s.p.d s.a m.1 s.p.c
  ((m.2.setA r.r).setP (setArith r s.p)).advance src.length

/-- SBC (40_arithmetic.md R116): A and the flags from the subtraction D chooses. -/
def sbc (src : Source) (s : State) : State :=
  let m := src.load s
  let r := subByMode s.p.d s.a m.1 s.p.c
  ((m.2.setA r.r).setP (setArith r s.p)).advance src.length

/-- A compare of the register value `reg` (40_arithmetic.md R114, R117 to R119): flags only. -/
def compareWith (reg : Byte) (src : Source) (s : State) : State :=
  let m := src.load s
  (m.2.setP (compareFlags reg m.1 s.p)).advance src.length

/-- ADC Immediate, 0x69 (R115). -/
def execAdcImmediate (v : Byte) (s : State) : Host.Outcome State Fault Refusal :=
  unlessDecimalRefused s (adc (.immediate v) s)

/-- ADC Zero Page, 0x65 (R115). -/
def execAdcZeroPage (zp : Byte) (s : State) : Host.Outcome State Fault Refusal :=
  unlessDecimalRefused s (adc (.memory (.zeroPage zp)) s)

/-- ADC Zero Page,X, 0x75 (R115). -/
def execAdcZeroPageX (zp : Byte) (s : State) : Host.Outcome State Fault Refusal :=
  unlessDecimalRefused s (adc (.memory (.zeroPageX zp)) s)

/-- ADC Absolute, 0x6D (R115). -/
def execAdcAbsolute (addr : Word) (s : State) : Host.Outcome State Fault Refusal :=
  unlessDecimalRefused s (adc (.memory (.absolute addr)) s)

/-- ADC Absolute,X, 0x7D (R115). -/
def execAdcAbsoluteX (addr : Word) (s : State) : Host.Outcome State Fault Refusal :=
  unlessDecimalRefused s (adc (.memory (.absoluteX addr)) s)

/-- ADC Absolute,Y, 0x79 (R115). -/
def execAdcAbsoluteY (addr : Word) (s : State) : Host.Outcome State Fault Refusal :=
  unlessDecimalRefused s (adc (.memory (.absoluteY addr)) s)

/-- ADC Indirect,X, 0x61 (R115). -/
def execAdcIndirectX (zp : Byte) (s : State) : Host.Outcome State Fault Refusal :=
  unlessDecimalRefused s (adc (.memory (.indirectX zp)) s)

/-- ADC Indirect,Y, 0x71 (R115). -/
def execAdcIndirectY (zp : Byte) (s : State) : Host.Outcome State Fault Refusal :=
  unlessDecimalRefused s (adc (.memory (.indirectY zp)) s)

/-- SBC Immediate, 0xE9 (R116). -/
def execSbcImmediate (v : Byte) (s : State) : Host.Outcome State Fault Refusal :=
  unlessDecimalRefused s (sbc (.immediate v) s)

/-- SBC Zero Page, 0xE5 (R116). -/
def execSbcZeroPage (zp : Byte) (s : State) : Host.Outcome State Fault Refusal :=
  unlessDecimalRefused s (sbc (.memory (.zeroPage zp)) s)

/-- SBC Zero Page,X, 0xF5 (R116). -/
def execSbcZeroPageX (zp : Byte) (s : State) : Host.Outcome State Fault Refusal :=
  unlessDecimalRefused s (sbc (.memory (.zeroPageX zp)) s)

/-- SBC Absolute, 0xED (R116). -/
def execSbcAbsolute (addr : Word) (s : State) : Host.Outcome State Fault Refusal :=
  unlessDecimalRefused s (sbc (.memory (.absolute addr)) s)

/-- SBC Absolute,X, 0xFD (R116). -/
def execSbcAbsoluteX (addr : Word) (s : State) : Host.Outcome State Fault Refusal :=
  unlessDecimalRefused s (sbc (.memory (.absoluteX addr)) s)

/-- SBC Absolute,Y, 0xF9 (R116). -/
def execSbcAbsoluteY (addr : Word) (s : State) : Host.Outcome State Fault Refusal :=
  unlessDecimalRefused s (sbc (.memory (.absoluteY addr)) s)

/-- SBC Indirect,X, 0xE1 (R116). -/
def execSbcIndirectX (zp : Byte) (s : State) : Host.Outcome State Fault Refusal :=
  unlessDecimalRefused s (sbc (.memory (.indirectX zp)) s)

/-- SBC Indirect,Y, 0xF1 (R116). -/
def execSbcIndirectY (zp : Byte) (s : State) : Host.Outcome State Fault Refusal :=
  unlessDecimalRefused s (sbc (.memory (.indirectY zp)) s)

/-- CMP Immediate, 0xC9 (R117). -/
def execCmpImmediate (v : Byte) (s : State) : Host.Outcome State Fault Refusal :=
  .next (compareWith s.a (.immediate v) s)

/-- CMP Zero Page, 0xC5 (R117). -/
def execCmpZeroPage (zp : Byte) (s : State) : Host.Outcome State Fault Refusal :=
  .next (compareWith s.a (.memory (.zeroPage zp)) s)

/-- CMP Zero Page,X, 0xD5 (R117). -/
def execCmpZeroPageX (zp : Byte) (s : State) : Host.Outcome State Fault Refusal :=
  .next (compareWith s.a (.memory (.zeroPageX zp)) s)

/-- CMP Absolute, 0xCD (R117). -/
def execCmpAbsolute (addr : Word) (s : State) : Host.Outcome State Fault Refusal :=
  .next (compareWith s.a (.memory (.absolute addr)) s)

/-- CMP Absolute,X, 0xDD (R117). -/
def execCmpAbsoluteX (addr : Word) (s : State) : Host.Outcome State Fault Refusal :=
  .next (compareWith s.a (.memory (.absoluteX addr)) s)

/-- CMP Absolute,Y, 0xD9 (R117). -/
def execCmpAbsoluteY (addr : Word) (s : State) : Host.Outcome State Fault Refusal :=
  .next (compareWith s.a (.memory (.absoluteY addr)) s)

/-- CMP Indirect,X, 0xC1 (R117). -/
def execCmpIndirectX (zp : Byte) (s : State) : Host.Outcome State Fault Refusal :=
  .next (compareWith s.a (.memory (.indirectX zp)) s)

/-- CMP Indirect,Y, 0xD1 (R117). -/
def execCmpIndirectY (zp : Byte) (s : State) : Host.Outcome State Fault Refusal :=
  .next (compareWith s.a (.memory (.indirectY zp)) s)

/-- CPX Immediate, 0xE0 (R118). -/
def execCpxImmediate (v : Byte) (s : State) : Host.Outcome State Fault Refusal :=
  .next (compareWith s.x (.immediate v) s)

/-- CPX Zero Page, 0xE4 (R118). -/
def execCpxZeroPage (zp : Byte) (s : State) : Host.Outcome State Fault Refusal :=
  .next (compareWith s.x (.memory (.zeroPage zp)) s)

/-- CPX Absolute, 0xEC (R118). -/
def execCpxAbsolute (addr : Word) (s : State) : Host.Outcome State Fault Refusal :=
  .next (compareWith s.x (.memory (.absolute addr)) s)

/-- CPY Immediate, 0xC0 (R119). -/
def execCpyImmediate (v : Byte) (s : State) : Host.Outcome State Fault Refusal :=
  .next (compareWith s.y (.immediate v) s)

/-- CPY Zero Page, 0xC4 (R119). -/
def execCpyZeroPage (zp : Byte) (s : State) : Host.Outcome State Fault Refusal :=
  .next (compareWith s.y (.memory (.zeroPage zp)) s)

/-- CPY Absolute, 0xCC (R119). -/
def execCpyAbsolute (addr : Word) (s : State) : Host.Outcome State Fault Refusal :=
  .next (compareWith s.y (.memory (.absolute addr)) s)

end Sys2Proof.Machine
end

