-- ==== Sys2Proof/Machine/Branch.lean ====
section
/-! DEFINITION. The eight conditional branches (43_branch.md R140 to R148). A meaning takes the state with PC at the opcode byte and answers the state after the whole instruction. -/

namespace Sys2Proof.Machine

open Sys2Proof

/-- Branch(cond) (43_branch.md R140): PC only. -/
def branch (cond : Bool) (disp : Byte) (s : State) : State :=
  let npc := s.pc + 2
  s.setPc (if cond then branchTarget npc disp else npc)

/-- BCC Relative, 0x90 (R141). -/
def execBcc (disp : Byte) (s : State) : Host.Outcome State Fault Refusal :=
  .next (branch (!s.p.c) disp s)

/-- BCS Relative, 0xB0 (R142). -/
def execBcs (disp : Byte) (s : State) : Host.Outcome State Fault Refusal :=
  .next (branch s.p.c disp s)

/-- BEQ Relative, 0xF0 (R143). -/
def execBeq (disp : Byte) (s : State) : Host.Outcome State Fault Refusal :=
  .next (branch s.p.z disp s)

/-- BMI Relative, 0x30 (R144). -/
def execBmi (disp : Byte) (s : State) : Host.Outcome State Fault Refusal :=
  .next (branch s.p.n disp s)

/-- BNE Relative, 0xD0 (R145). -/
def execBne (disp : Byte) (s : State) : Host.Outcome State Fault Refusal :=
  .next (branch (!s.p.z) disp s)

/-- BPL Relative, 0x10 (R146). -/
def execBpl (disp : Byte) (s : State) : Host.Outcome State Fault Refusal :=
  .next (branch (!s.p.n) disp s)

/-- BVC Relative, 0x50 (R147). -/
def execBvc (disp : Byte) (s : State) : Host.Outcome State Fault Refusal :=
  .next (branch (!s.p.v) disp s)

/-- BVS Relative, 0x70 (R148). -/
def execBvs (disp : Byte) (s : State) : Host.Outcome State Fault Refusal :=
  .next (branch s.p.v disp s)

end Sys2Proof.Machine
end

