-- ==== Sys2Proof/Machine/FlagOps.lean ====
section
/-! DEFINITION. CLC, CLD, CLI, CLV, SEC, SED, SEI (44_flag.md R150 to R156). A meaning takes the state with PC at the opcode byte and answers the state after the whole instruction. -/

namespace Sys2Proof.Machine

open Sys2Proof

/-- A one-byte instruction that writes flags and nothing else (44_flag.md). -/
def flagOp (p : Flags) (s : State) : State := (s.setP p).advance 1

/-- CLC Implied, 0x18 (R150). -/
def execClc (s : State) : Host.Outcome State Fault Refusal :=
  .next (flagOp { s.p with c := false } s)

/-- CLD Implied, 0xD8 (R151). -/
def execCld (s : State) : Host.Outcome State Fault Refusal :=
  .next (flagOp { s.p with d := false } s)

/-- CLI Implied, 0x58 (R152). -/
def execCli (s : State) : Host.Outcome State Fault Refusal :=
  .next (flagOp { s.p with i := false } s)

/-- CLV Implied, 0xB8 (R153). -/
def execClv (s : State) : Host.Outcome State Fault Refusal :=
  .next (flagOp { s.p with v := false } s)

/-- SEC Implied, 0x38 (R154). -/
def execSec (s : State) : Host.Outcome State Fault Refusal :=
  .next (flagOp { s.p with c := true } s)

/-- SED Implied, 0xF8 (R155). -/
def execSed (s : State) : Host.Outcome State Fault Refusal :=
  .next (flagOp { s.p with d := true } s)

/-- SEI Implied, 0x78 (R156). -/
def execSei (s : State) : Host.Outcome State Fault Refusal :=
  .next (flagOp { s.p with i := true } s)

end Sys2Proof.Machine
end

