-- ==== Sys2Proof/Machine/IncDec.lean ====
section
/-! DEFINITION. DEC, DEX, DEY, INC, INX, INY (45_incdec.md R160 to R165). A meaning takes the state with PC at the opcode byte and answers the state after the whole instruction. -/

namespace Sys2Proof.Machine

open Sys2Proof

/-- An increment or decrement of a byte of memory (45_incdec.md R160, R163). -/
def step1Memory (f : Byte → Flags → Byte × Flags) (m : MemMode) (s : State) : State := (m.modify f s).advance m.length

/-- X replaced, with N and Z from it (45_incdec.md R161, R164). -/
def countX (v : Byte) (s : State) : State := ((s.setX v).setP (setNZ v s.p)).advance 1

/-- Y replaced, with N and Z from it (45_incdec.md R162, R165). -/
def countY (v : Byte) (s : State) : State := ((s.setY v).setP (setNZ v s.p)).advance 1

/-- DEC Zero Page, 0xC6 (R160). -/
def execDecZeroPage (zp : Byte) (s : State) : Host.Outcome State Fault Refusal :=
  .next (step1Memory decByte (.zeroPage zp) s)

/-- DEC Zero Page,X, 0xD6 (R160). -/
def execDecZeroPageX (zp : Byte) (s : State) : Host.Outcome State Fault Refusal :=
  .next (step1Memory decByte (.zeroPageX zp) s)

/-- DEC Absolute, 0xCE (R160). -/
def execDecAbsolute (addr : Word) (s : State) : Host.Outcome State Fault Refusal :=
  .next (step1Memory decByte (.absolute addr) s)

/-- DEC Absolute,X, 0xDE (R160). -/
def execDecAbsoluteX (addr : Word) (s : State) : Host.Outcome State Fault Refusal :=
  .next (step1Memory decByte (.absoluteX addr) s)

/-- DEX Implied, 0xCA (R161). -/
def execDex (s : State) : Host.Outcome State Fault Refusal :=
  .next (countX (s.x - 1) s)

/-- DEY Implied, 0x88 (R162). -/
def execDey (s : State) : Host.Outcome State Fault Refusal :=
  .next (countY (s.y - 1) s)

/-- INC Zero Page, 0xE6 (R163). -/
def execIncZeroPage (zp : Byte) (s : State) : Host.Outcome State Fault Refusal :=
  .next (step1Memory incByte (.zeroPage zp) s)

/-- INC Zero Page,X, 0xF6 (R163). -/
def execIncZeroPageX (zp : Byte) (s : State) : Host.Outcome State Fault Refusal :=
  .next (step1Memory incByte (.zeroPageX zp) s)

/-- INC Absolute, 0xEE (R163). -/
def execIncAbsolute (addr : Word) (s : State) : Host.Outcome State Fault Refusal :=
  .next (step1Memory incByte (.absolute addr) s)

/-- INC Absolute,X, 0xFE (R163). -/
def execIncAbsoluteX (addr : Word) (s : State) : Host.Outcome State Fault Refusal :=
  .next (step1Memory incByte (.absoluteX addr) s)

/-- INX Implied, 0xE8 (R164). -/
def execInx (s : State) : Host.Outcome State Fault Refusal :=
  .next (countX (s.x + 1) s)

/-- INY Implied, 0xC8 (R165). -/
def execIny (s : State) : Host.Outcome State Fault Refusal :=
  .next (countY (s.y + 1) s)

end Sys2Proof.Machine
end

