-- ==== Sys2Proof/Machine/Jump.lean ====
section
/-! DEFINITION. JMP, JSR, RTS (46_jump_subroutine.md R170 to R172). A meaning takes the state with PC at the opcode byte and answers the state after the whole instruction. -/

namespace Sys2Proof.Machine

open Sys2Proof

/-- JMP Indirect (46_jump_subroutine.md R170). -/
def jumpIndirect (ptr : Word) (s : State) : State :=
  let t := s.indirectTarget ptr
  t.2.setPc t.1

/-- JSR (46_jump_subroutine.md R171): the address of its own last byte goes on the stack. -/
def jumpSubroutine (addr : Word) (s : State) : State := (s.push16 (s.pc + 2)).setPc addr

/-- RTS (46_jump_subroutine.md R172): one more than the address pulled. -/
def returnSubroutine (s : State) : State :=
  let t := s.pull16
  t.2.setPc (t.1 + 1)

/-- JMP Absolute, 0x4C (R170). -/
def execJmpAbsolute (addr : Word) (s : State) : Host.Outcome State Fault Refusal :=
  .next (s.setPc addr)

/-- JMP Indirect, 0x6C (R170). -/
def execJmpIndirect (ptr : Word) (s : State) : Host.Outcome State Fault Refusal :=
  .next (jumpIndirect ptr s)

/-- JSR Absolute, 0x20 (R171). -/
def execJsr (addr : Word) (s : State) : Host.Outcome State Fault Refusal :=
  .next (jumpSubroutine addr s)

/-- RTS Implied, 0x60 (R172). -/
def execRts (s : State) : Host.Outcome State Fault Refusal :=
  .next (returnSubroutine s)

end Sys2Proof.Machine
end

