-- ==== Sys2Proof/Machine/LoadStore.lean ====
section
/-! DEFINITION. LDA, LDX, LDY, STA, STX, STY (47_load_store.md R180 to R185). A meaning takes the state with PC at the opcode byte and answers the state after the whole instruction. -/

namespace Sys2Proof.Machine

open Sys2Proof

/-- LDA (47_load_store.md R180). -/
def loadA (src : Source) (s : State) : State :=
  let m := src.load s
  ((m.2.setA m.1).setP (setNZ m.1 s.p)).advance src.length

/-- LDX (47_load_store.md R181). -/
def loadX (src : Source) (s : State) : State :=
  let m := src.load s
  ((m.2.setX m.1).setP (setNZ m.1 s.p)).advance src.length

/-- LDY (47_load_store.md R182). -/
def loadY (src : Source) (s : State) : State :=
  let m := src.load s
  ((m.2.setY m.1).setP (setNZ m.1 s.p)).advance src.length

/-- A store of a register's value: one byte of memory, no flag (47_load_store.md R183 to R185). -/
def storeByte (v : Byte) (m : MemMode) (s : State) : State := (m.store v s).advance m.length

/-- LDA Immediate, 0xA9 (R180). -/
def execLdaImmediate (v : Byte) (s : State) : Host.Outcome State Fault Refusal :=
  .next (loadA (.immediate v) s)

/-- LDA Zero Page, 0xA5 (R180). -/
def execLdaZeroPage (zp : Byte) (s : State) : Host.Outcome State Fault Refusal :=
  .next (loadA (.memory (.zeroPage zp)) s)

/-- LDA Zero Page,X, 0xB5 (R180). -/
def execLdaZeroPageX (zp : Byte) (s : State) : Host.Outcome State Fault Refusal :=
  .next (loadA (.memory (.zeroPageX zp)) s)

/-- LDA Absolute, 0xAD (R180). -/
def execLdaAbsolute (addr : Word) (s : State) : Host.Outcome State Fault Refusal :=
  .next (loadA (.memory (.absolute addr)) s)

/-- LDA Absolute,X, 0xBD (R180). -/
def execLdaAbsoluteX (addr : Word) (s : State) : Host.Outcome State Fault Refusal :=
  .next (loadA (.memory (.absoluteX addr)) s)

/-- LDA Absolute,Y, 0xB9 (R180). -/
def execLdaAbsoluteY (addr : Word) (s : State) : Host.Outcome State Fault Refusal :=
  .next (loadA (.memory (.absoluteY addr)) s)

/-- LDA Indirect,X, 0xA1 (R180). -/
def execLdaIndirectX (zp : Byte) (s : State) : Host.Outcome State Fault Refusal :=
  .next (loadA (.memory (.indirectX zp)) s)

/-- LDA Indirect,Y, 0xB1 (R180). -/
def execLdaIndirectY (zp : Byte) (s : State) : Host.Outcome State Fault Refusal :=
  .next (loadA (.memory (.indirectY zp)) s)

/-- LDX Immediate, 0xA2 (R181). -/
def execLdxImmediate (v : Byte) (s : State) : Host.Outcome State Fault Refusal :=
  .next (loadX (.immediate v) s)

/-- LDX Zero Page, 0xA6 (R181). -/
def execLdxZeroPage (zp : Byte) (s : State) : Host.Outcome State Fault Refusal :=
  .next (loadX (.memory (.zeroPage zp)) s)

/-- LDX Zero Page,Y, 0xB6 (R181). -/
def execLdxZeroPageY (zp : Byte) (s : State) : Host.Outcome State Fault Refusal :=
  .next (loadX (.memory (.zeroPageY zp)) s)

/-- LDX Absolute, 0xAE (R181). -/
def execLdxAbsolute (addr : Word) (s : State) : Host.Outcome State Fault Refusal :=
  .next (loadX (.memory (.absolute addr)) s)

/-- LDX Absolute,Y, 0xBE (R181). -/
def execLdxAbsoluteY (addr : Word) (s : State) : Host.Outcome State Fault Refusal :=
  .next (loadX (.memory (.absoluteY addr)) s)

/-- LDY Immediate, 0xA0 (R182). -/
def execLdyImmediate (v : Byte) (s : State) : Host.Outcome State Fault Refusal :=
  .next (loadY (.immediate v) s)

/-- LDY Zero Page, 0xA4 (R182). -/
def execLdyZeroPage (zp : Byte) (s : State) : Host.Outcome State Fault Refusal :=
  .next (loadY (.memory (.zeroPage zp)) s)

/-- LDY Zero Page,X, 0xB4 (R182). -/
def execLdyZeroPageX (zp : Byte) (s : State) : Host.Outcome State Fault Refusal :=
  .next (loadY (.memory (.zeroPageX zp)) s)

/-- LDY Absolute, 0xAC (R182). -/
def execLdyAbsolute (addr : Word) (s : State) : Host.Outcome State Fault Refusal :=
  .next (loadY (.memory (.absolute addr)) s)

/-- LDY Absolute,X, 0xBC (R182). -/
def execLdyAbsoluteX (addr : Word) (s : State) : Host.Outcome State Fault Refusal :=
  .next (loadY (.memory (.absoluteX addr)) s)

/-- STA Zero Page, 0x85 (R183). -/
def execStaZeroPage (zp : Byte) (s : State) : Host.Outcome State Fault Refusal :=
  .next (storeByte s.a (.zeroPage zp) s)

/-- STA Zero Page,X, 0x95 (R183). -/
def execStaZeroPageX (zp : Byte) (s : State) : Host.Outcome State Fault Refusal :=
  .next (storeByte s.a (.zeroPageX zp) s)

/-- STA Absolute, 0x8D (R183). -/
def execStaAbsolute (addr : Word) (s : State) : Host.Outcome State Fault Refusal :=
  .next (storeByte s.a (.absolute addr) s)

/-- STA Absolute,X, 0x9D (R183). -/
def execStaAbsoluteX (addr : Word) (s : State) : Host.Outcome State Fault Refusal :=
  .next (storeByte s.a (.absoluteX addr) s)

/-- STA Absolute,Y, 0x99 (R183). -/
def execStaAbsoluteY (addr : Word) (s : State) : Host.Outcome State Fault Refusal :=
  .next (storeByte s.a (.absoluteY addr) s)

/-- STA Indirect,X, 0x81 (R183). -/
def execStaIndirectX (zp : Byte) (s : State) : Host.Outcome State Fault Refusal :=
  .next (storeByte s.a (.indirectX zp) s)

/-- STA Indirect,Y, 0x91 (R183). -/
def execStaIndirectY (zp : Byte) (s : State) : Host.Outcome State Fault Refusal :=
  .next (storeByte s.a (.indirectY zp) s)

/-- STX Zero Page, 0x86 (R184). -/
def execStxZeroPage (zp : Byte) (s : State) : Host.Outcome State Fault Refusal :=
  .next (storeByte s.x (.zeroPage zp) s)

/-- STX Zero Page,Y, 0x96 (R184). -/
def execStxZeroPageY (zp : Byte) (s : State) : Host.Outcome State Fault Refusal :=
  .next (storeByte s.x (.zeroPageY zp) s)

/-- STX Absolute, 0x8E (R184). -/
def execStxAbsolute (addr : Word) (s : State) : Host.Outcome State Fault Refusal :=
  .next (storeByte s.x (.absolute addr) s)

/-- STY Zero Page, 0x84 (R185). -/
def execStyZeroPage (zp : Byte) (s : State) : Host.Outcome State Fault Refusal :=
  .next (storeByte s.y (.zeroPage zp) s)

/-- STY Zero Page,X, 0x94 (R185). -/
def execStyZeroPageX (zp : Byte) (s : State) : Host.Outcome State Fault Refusal :=
  .next (storeByte s.y (.zeroPageX zp) s)

/-- STY Absolute, 0x8C (R185). -/
def execStyAbsolute (addr : Word) (s : State) : Host.Outcome State Fault Refusal :=
  .next (storeByte s.y (.absolute addr) s)

end Sys2Proof.Machine
end

