-- ==== Sys2Proof/Machine/Logic.lean ====
section
/-! DEFINITION. AND, EOR, ORA, BIT (41_logic.md R125 to R128). A meaning takes the state with PC at the opcode byte and answers the state after the whole instruction. -/

namespace Sys2Proof.Machine

open Sys2Proof

/-- A <- op(A, M), with N and Z from the result (41_logic.md R125 to R127). -/
def logic (op : Byte → Byte → Byte) (src : Source) (s : State) : State :=
  let m := src.load s
  let r := op s.a m.1
  ((m.2.setA r).setP (setNZ r s.p)).advance src.length

/-- BIT (41_logic.md R128): flags only. -/
def bitTest (mode : MemMode) (s : State) : State :=
  let m := mode.load s
  (m.2.setP (bitFlags s.a m.1 s.p)).advance mode.length

/-- AND Immediate, 0x29 (R125). -/
def execAndImmediate (v : Byte) (s : State) : Host.Outcome State Fault Refusal :=
  .next (logic (· &&& ·) (.immediate v) s)

/-- AND Zero Page, 0x25 (R125). -/
def execAndZeroPage (zp : Byte) (s : State) : Host.Outcome State Fault Refusal :=
  .next (logic (· &&& ·) (.memory (.zeroPage zp)) s)

/-- AND Zero Page,X, 0x35 (R125). -/
def execAndZeroPageX (zp : Byte) (s : State) : Host.Outcome State Fault Refusal :=
  .next (logic (· &&& ·) (.memory (.zeroPageX zp)) s)

/-- AND Absolute, 0x2D (R125). -/
def execAndAbsolute (addr : Word) (s : State) : Host.Outcome State Fault Refusal :=
  .next (logic (· &&& ·) (.memory (.absolute addr)) s)

/-- AND Absolute,X, 0x3D (R125). -/
def execAndAbsoluteX (addr : Word) (s : State) : Host.Outcome State Fault Refusal :=
  .next (logic (· &&& ·) (.memory (.absoluteX addr)) s)

/-- AND Absolute,Y, 0x39 (R125). -/
def execAndAbsoluteY (addr : Word) (s : State) : Host.Outcome State Fault Refusal :=
  .next (logic (· &&& ·) (.memory (.absoluteY addr)) s)

/-- AND Indirect,X, 0x21 (R125). -/
def execAndIndirectX (zp : Byte) (s : State) : Host.Outcome State Fault Refusal :=
  .next (logic (· &&& ·) (.memory (.indirectX zp)) s)

/-- AND Indirect,Y, 0x31 (R125). -/
def execAndIndirectY (zp : Byte) (s : State) : Host.Outcome State Fault Refusal :=
  .next (logic (· &&& ·) (.memory (.indirectY zp)) s)

/-- EOR Immediate, 0x49 (R126). -/
def execEorImmediate (v : Byte) (s : State) : Host.Outcome State Fault Refusal :=
  .next (logic (· ^^^ ·) (.immediate v) s)

/-- EOR Zero Page, 0x45 (R126). -/
def execEorZeroPage (zp : Byte) (s : State) : Host.Outcome State Fault Refusal :=
  .next (logic (· ^^^ ·) (.memory (.zeroPage zp)) s)

/-- EOR Zero Page,X, 0x55 (R126). -/
def execEorZeroPageX (zp : Byte) (s : State) : Host.Outcome State Fault Refusal :=
  .next (logic (· ^^^ ·) (.memory (.zeroPageX zp)) s)

/-- EOR Absolute, 0x4D (R126). -/
def execEorAbsolute (addr : Word) (s : State) : Host.Outcome State Fault Refusal :=
  .next (logic (· ^^^ ·) (.memory (.absolute addr)) s)

/-- EOR Absolute,X, 0x5D (R126). -/
def execEorAbsoluteX (addr : Word) (s : State) : Host.Outcome State Fault Refusal :=
  .next (logic (· ^^^ ·) (.memory (.absoluteX addr)) s)

/-- EOR Absolute,Y, 0x59 (R126). -/
def execEorAbsoluteY (addr : Word) (s : State) : Host.Outcome State Fault Refusal :=
  .next (logic (· ^^^ ·) (.memory (.absoluteY addr)) s)

/-- EOR Indirect,X, 0x41 (R126). -/
def execEorIndirectX (zp : Byte) (s : State) : Host.Outcome State Fault Refusal :=
  .next (logic (· ^^^ ·) (.memory (.indirectX zp)) s)

/-- EOR Indirect,Y, 0x51 (R126). -/
def execEorIndirectY (zp : Byte) (s : State) : Host.Outcome State Fault Refusal :=
  .next (logic (· ^^^ ·) (.memory (.indirectY zp)) s)

/-- ORA Immediate, 0x09 (R127). -/
def execOraImmediate (v : Byte) (s : State) : Host.Outcome State Fault Refusal :=
  .next (logic (· ||| ·) (.immediate v) s)

/-- ORA Zero Page, 0x05 (R127). -/
def execOraZeroPage (zp : Byte) (s : State) : Host.Outcome State Fault Refusal :=
  .next (logic (· ||| ·) (.memory (.zeroPage zp)) s)

/-- ORA Zero Page,X, 0x15 (R127). -/
def execOraZeroPageX (zp : Byte) (s : State) : Host.Outcome State Fault Refusal :=
  .next (logic (· ||| ·) (.memory (.zeroPageX zp)) s)

/-- ORA Absolute, 0x0D (R127). -/
def execOraAbsolute (addr : Word) (s : State) : Host.Outcome State Fault Refusal :=
  .next (logic (· ||| ·) (.memory (.absolute addr)) s)

/-- ORA Absolute,X, 0x1D (R127). -/
def execOraAbsoluteX (addr : Word) (s : State) : Host.Outcome State Fault Refusal :=
  .next (logic (· ||| ·) (.memory (.absoluteX addr)) s)

/-- ORA Absolute,Y, 0x19 (R127). -/
def execOraAbsoluteY (addr : Word) (s : State) : Host.Outcome State Fault Refusal :=
  .next (logic (· ||| ·) (.memory (.absoluteY addr)) s)

/-- ORA Indirect,X, 0x01 (R127). -/
def execOraIndirectX (zp : Byte) (s : State) : Host.Outcome State Fault Refusal :=
  .next (logic (· ||| ·) (.memory (.indirectX zp)) s)

/-- ORA Indirect,Y, 0x11 (R127). -/
def execOraIndirectY (zp : Byte) (s : State) : Host.Outcome State Fault Refusal :=
  .next (logic (· ||| ·) (.memory (.indirectY zp)) s)

/-- BIT Zero Page, 0x24 (R128). -/
def execBitZeroPage (zp : Byte) (s : State) : Host.Outcome State Fault Refusal :=
  .next (bitTest (.zeroPage zp) s)

/-- BIT Absolute, 0x2C (R128). -/
def execBitAbsolute (addr : Word) (s : State) : Host.Outcome State Fault Refusal :=
  .next (bitTest (.absolute addr) s)

end Sys2Proof.Machine
end

