-- ==== Sys2Proof/Machine/Shift.lean ====
section
/-! DEFINITION. ASL, LSR, ROL, ROR (42_shift_rotate.md R130 to R134). A meaning takes the state with PC at the opcode byte and answers the state after the whole instruction. -/

namespace Sys2Proof.Machine

open Sys2Proof

/-- A shift or rotate by one bit of A or of a byte of memory (42_shift_rotate.md R134). -/
def shift (f : Byte → Flags → Byte × Flags) (t : Target) (s : State) : State := (t.modify f s).advance t.length

/-- ASL Zero Page, 0x06 (R130). -/
def execAslZeroPage (zp : Byte) (s : State) : Host.Outcome State Fault Refusal :=
  .next (shift aslByte (.memory (.zeroPage zp)) s)

/-- ASL Zero Page,X, 0x16 (R130). -/
def execAslZeroPageX (zp : Byte) (s : State) : Host.Outcome State Fault Refusal :=
  .next (shift aslByte (.memory (.zeroPageX zp)) s)

/-- ASL Absolute, 0x0E (R130). -/
def execAslAbsolute (addr : Word) (s : State) : Host.Outcome State Fault Refusal :=
  .next (shift aslByte (.memory (.absolute addr)) s)

/-- ASL Absolute,X, 0x1E (R130). -/
def execAslAbsoluteX (addr : Word) (s : State) : Host.Outcome State Fault Refusal :=
  .next (shift aslByte (.memory (.absoluteX addr)) s)

/-- ASL Accumulator, 0x0A (R130). -/
def execAslAccumulator (s : State) : Host.Outcome State Fault Refusal :=
  .next (shift aslByte .accumulator s)

/-- LSR Zero Page, 0x46 (R131). -/
def execLsrZeroPage (zp : Byte) (s : State) : Host.Outcome State Fault Refusal :=
  .next (shift lsrByte (.memory (.zeroPage zp)) s)

/-- LSR Zero Page,X, 0x56 (R131). -/
def execLsrZeroPageX (zp : Byte) (s : State) : Host.Outcome State Fault Refusal :=
  .next (shift lsrByte (.memory (.zeroPageX zp)) s)

/-- LSR Absolute, 0x4E (R131). -/
def execLsrAbsolute (addr : Word) (s : State) : Host.Outcome State Fault Refusal :=
  .next (shift lsrByte (.memory (.absolute addr)) s)

/-- LSR Absolute,X, 0x5E (R131). -/
def execLsrAbsoluteX (addr : Word) (s : State) : Host.Outcome State Fault Refusal :=
  .next (shift lsrByte (.memory (.absoluteX addr)) s)

/-- LSR Accumulator, 0x4A (R131). -/
def execLsrAccumulator (s : State) : Host.Outcome State Fault Refusal :=
  .next (shift lsrByte .accumulator s)

/-- ROL Zero Page, 0x26 (R132). -/
def execRolZeroPage (zp : Byte) (s : State) : Host.Outcome State Fault Refusal :=
  .next (shift rolByte (.memory (.zeroPage zp)) s)

/-- ROL Zero Page,X, 0x36 (R132). -/
def execRolZeroPageX (zp : Byte) (s : State) : Host.Outcome State Fault Refusal :=
  .next (shift rolByte (.memory (.zeroPageX zp)) s)

/-- ROL Absolute, 0x2E (R132). -/
def execRolAbsolute (addr : Word) (s : State) : Host.Outcome State Fault Refusal :=
  .next (shift rolByte (.memory (.absolute addr)) s)

/-- ROL Absolute,X, 0x3E (R132). -/
def execRolAbsoluteX (addr : Word) (s : State) : Host.Outcome State Fault Refusal :=
  .next (shift rolByte (.memory (.absoluteX addr)) s)

/-- ROL Accumulator, 0x2A (R132). -/
def execRolAccumulator (s : State) : Host.Outcome State Fault Refusal :=
  .next (shift rolByte .accumulator s)

/-- ROR Zero Page, 0x66 (R133). -/
def execRorZeroPage (zp : Byte) (s : State) : Host.Outcome State Fault Refusal :=
  .next (shift rorByte (.memory (.zeroPage zp)) s)

/-- ROR Zero Page,X, 0x76 (R133). -/
def execRorZeroPageX (zp : Byte) (s : State) : Host.Outcome State Fault Refusal :=
  .next (shift rorByte (.memory (.zeroPageX zp)) s)

/-- ROR Absolute, 0x6E (R133). -/
def execRorAbsolute (addr : Word) (s : State) : Host.Outcome State Fault Refusal :=
  .next (shift rorByte (.memory (.absolute addr)) s)

/-- ROR Absolute,X, 0x7E (R133). -/
def execRorAbsoluteX (addr : Word) (s : State) : Host.Outcome State Fault Refusal :=
  .next (shift rorByte (.memory (.absoluteX addr)) s)

/-- ROR Accumulator, 0x6A (R133). -/
def execRorAccumulator (s : State) : Host.Outcome State Fault Refusal :=
  .next (shift rorByte .accumulator s)

end Sys2Proof.Machine
end

