-- ==== Sys2Proof/Machine/StackTransfer.lean ====
section
/-! DEFINITION. PHA, PHP, PLA, PLP and the register transfers (48_stack_transfer.md R190 to R199). A meaning takes the state with PC at the opcode byte and answers the state after the whole instruction. -/

namespace Sys2Proof.Machine

open Sys2Proof

/-- A push of one byte (48_stack_transfer.md R190, R191). -/
def pushByte (v : Byte) (s : State) : State := (s.push v).advance 1

/-- PLA (48_stack_transfer.md R192): N and Z are written (90_conflicts.md C7). -/
def pullA (s : State) : State :=
  let m := s.pull
  ((m.2.setA m.1).setP (setNZ m.1 s.p)).advance 1

/-- PLP (48_stack_transfer.md R193). -/
def pullP (s : State) : State :=
  let m := s.pull
  (m.2.setP (unpackP m.1)).advance 1

/-- A transfer into A, with N and Z from the value moved (48_stack_transfer.md R197, R199). -/
def transferToA (v : Byte) (s : State) : State := ((s.setA v).setP (setNZ v s.p)).advance 1

/-- A transfer into X, with N and Z from the value moved (48_stack_transfer.md R194, R196). -/
def transferToX (v : Byte) (s : State) : State := ((s.setX v).setP (setNZ v s.p)).advance 1

/-- A transfer into Y, with N and Z from the value moved (48_stack_transfer.md R195). -/
def transferToY (v : Byte) (s : State) : State := ((s.setY v).setP (setNZ v s.p)).advance 1

/-- PHA Implied, 0x48 (R190). -/
def execPha (s : State) : Host.Outcome State Fault Refusal :=
  .next (pushByte s.a s)

/-- PHP Implied, 0x08 (R191). -/
def execPhp (s : State) : Host.Outcome State Fault Refusal :=
  .next (pushByte (packP true s.p) s)

/-- PLA Implied, 0x68 (R192). -/
def execPla (s : State) : Host.Outcome State Fault Refusal :=
  .next (pullA s)

/-- PLP Implied, 0x28 (R193). -/
def execPlp (s : State) : Host.Outcome State Fault Refusal :=
  .next (pullP s)

/-- TAX Implied, 0xAA (R194). -/
def execTax (s : State) : Host.Outcome State Fault Refusal :=
  .next (transferToX s.a s)

/-- TAY Implied, 0xA8 (R195). -/
def execTay (s : State) : Host.Outcome State Fault Refusal :=
  .next (transferToY s.a s)

/-- TSX Implied, 0xBA (R196). -/
def execTsx (s : State) : Host.Outcome State Fault Refusal :=
  .next (transferToX s.s s)

/-- TXA Implied, 0x8A (R197). -/
def execTxa (s : State) : Host.Outcome State Fault Refusal :=
  .next (transferToA s.x s)

/-- TXS Implied, 0x9A (R198). -/
def execTxs (s : State) : Host.Outcome State Fault Refusal :=
  .next ((s.setS s.x).advance 1)

/-- TYA Implied, 0x98 (R199). -/
def execTya (s : State) : Host.Outcome State Fault Refusal :=
  .next (transferToA s.y s)

end Sys2Proof.Machine
end

