-- ==== Sys2Proof/Machine/System.lean ====
section
/-! DEFINITION. BRK, RTI, NOP (49_system.md R200 to R202). A meaning takes the state with PC at the opcode byte and answers the state after the whole instruction. -/

namespace Sys2Proof.Machine

open Sys2Proof

/-- BRK Implied, 0x00 (R200). -/
def execBrk (s : State) : Host.Outcome State Fault Refusal :=
  .next (s.interrupt vecIrq true (s.pc + 2))

/-- RTI Implied, 0x40 (R201). -/
def execRti (s : State) : Host.Outcome State Fault Refusal :=
  .next (s.returnFromInterrupt)

/-- NOP Implied, 0xEA (R202). -/
def execNop (s : State) : Host.Outcome State Fault Refusal :=
  .next (s.advance 1)

end Sys2Proof.Machine
end

