-- ==== Sys2Proof/Machine/Fetch.lean ====
section
/-! DEFINITION. Fetching an instruction (30_encoding.md R104): the opcode byte at PC, then the operand bytes its row needs, in
address order, modulo 65536, before anything the instruction does; and placing an instruction where the next step fetches. -/

namespace Sys2Proof.Machine

open Sys2Proof

/-- What a fetch gives: the opcode byte, the instruction (none for an undefined opcode), the state after the reads. -/
structure Fetched where
  byte0 : Byte
  instr : Option Instr
  state : State

/-- Fetch at PC (30_encoding.md R83, R104). PC is not moved. -/
def State.fetch (s : State) : Fetched :=
  let b0 := s.busRead s.pc
  match formOf b0.1 with
  | none => ⟨b0.1, none, b0.2⟩
  | some (.bare i) => ⟨b0.1, some i, b0.2⟩
  | some (.withByte f) =>
    let op8 := b0.2.busRead (s.pc + 1)
    ⟨b0.1, some (f op8.1), op8.2⟩
  | some (.withWord f) =>
    let op16 := b0.2.readPair (s.pc + 1) (s.pc + 2)
    ⟨b0.1, some (f op16.1), op16.2⟩

/-! ### Placing an instruction (assumption 22) -/

/-- The platform with plain RAM at an address, unless it has memory there already. -/
def platformWithMemoryAt (platform : Platform) (addr : Word) : Platform :=
  if (platform.kindAt addr).isMemory then platform
  else { platform with regions := ⟨addr, addr, .ram⟩ :: platform.regions }

/-- The inputs with no reset and no interrupt taken at the coming boundary. -/
def inputsWithoutEvent : List StepInput → List StepInput
  | [] => []
  | e :: rest => { e with resetLine := false, accept := false } :: rest

/-- Put one byte of an instruction in memory, where a fetch finds it. -/
def State.placeByte (s : State) (addr : Word) (v : Byte) : State :=
  { s with mem := Memory.write s.mem addr.toNat v, platform := platformWithMemoryAt s.platform addr }

/-- Put an instruction whose low `nbits` bits are those of `w` at PC, three bytes of it, the bits above `nbits` zero. -/
def State.placeInstruction (s : State) (nbits w : Nat) : State :=
  let bits := w % 2 ^ nbits
  let placed := ((s.placeByte s.pc (byteOfBits bits 0)).placeByte (s.pc + 1) (byteOfBits bits 1)).placeByte (s.pc + 2)
    (byteOfBits bits 2)
  { placed with inputs := inputsWithoutEvent s.inputs }

end Sys2Proof.Machine
end

