-- ==== Sys2Proof/Machine/Run.lean ====
section
/-! DEFINITION. The instruction a step runs (00_scope.md R10 (4), 30_encoding.md R104). -/

namespace Sys2Proof.Machine

open Sys2Proof

/-- Run one decoded instruction: `exec`, and the note of R221 (60_exceptions.md) for the boundary after it. -/
def runInstr (i : Instr) (s : State) : Host.Outcome State Fault Refusal :=
  match exec i s with
  | .next t => .next (t.setIrqWindow (opensIrqWindow i && !s.p.i && t.p.i))
  | .fault r => .fault r
  | .refused r => .refused r

/-- Fetch, decode and run the instruction at PC; an undefined opcode is refused (30_encoding.md R100, R104). -/
def runNext (s : State) : Host.Outcome State Fault Refusal :=
  let f := s.fetch
  match f.instr with
  | none => .refused (.undefinedOpcode f.byte0 s.pc)
  | some i => runInstr i f.state

end Sys2Proof.Machine
end

