-- ==== Sys2Proof/Machine/Step.lean ====
section
/-! DEFINITION. One step of the machine (00_scope.md R10), and where the host places an instruction. -/

namespace Sys2Proof.Machine

open Sys2Proof

/-- One step: at the boundary the environment's lines are latched; then the Reset, NMI or IRQ sequence, or one instruction. -/
def step (s : State) : Host.Outcome State Fault Refusal :=
  match s.action with
  | .reset => .next (s.latched.resetSequence.setIrqWindow false)
  | .nmi => .next (s.latched.nmiEntry.setIrqWindow false)
  | .irq => .next (s.latched.irqEntry.setIrqWindow false)
  | .instruction => runNext s.latched

/-- The state with an instruction stored where `step` fetches its next one, so that the next step runs exactly it. -/
def State.withFetchWord (s : State) (nbits w : Nat) : State := s.placeInstruction nbits w

end Sys2Proof.Machine
end

