-- ==== Sys2Proof/Machine/EndOfRun.lean ====
section
/-! DEFINITION. The end of a run (00_scope.md R11, 92 D15). The hardware never stops, so the model says when a run is over.
DESIGN CHOICE (assumption 25): it is over when PC, at an instruction boundary, is a stated address. -/

namespace Sys2Proof.Machine

open Sys2Proof

/-- A run stated to end at `stop` is over: the next instruction is the one at `stop`, and has not begun. -/
def State.runEnded (stop : Word) (s : State) : Bool := s.pc == stop

/-- What a run of at most so many steps comes to. -/
inductive RunResult where
  /-- PC came to the stated address, with this state; it was not there before. -/
  | ended (s : State)
  /-- The steps are used up and PC has not been at the stated address. -/
  | unfinished (s : State)
  /-- A step faulted; no step does (60_exceptions.md R210). -/
  | fault (r : Fault)
  /-- A step was refused before PC came to the stated address. -/
  | refused (r : Refusal)
  deriving DecidableEq, Repr

/-- Run at most `n` steps, up to the boundary at which PC is first `stop`; no step is made from there. -/
def State.runTo (stop : Word) : Nat → State → RunResult
  | 0, s => if s.runEnded stop then .ended s else .unfinished s
  | n + 1, s =>
    if s.runEnded stop then .ended s
    else
      match step s with
      | .next t => State.runTo stop n t
      | .fault r => .fault r
      | .refused r => .refused r

end Sys2Proof.Machine
end

