-- ==== Sys2Proof/Safety.lean ====
section
/-! DEFINITION. What claims about the machine are stated in: the machine's invariant, what an instruction leaves unchanged
(its frame), what a store and an interrupt entry leave behind, and the spec's list of undefined opcodes. -/

namespace Sys2Proof.Machine

open Sys2Proof

/-! ### Safe states -/

/-- The invariant of the machine: memory is in canonical form, and the boundary is one of R221's only if I is 1. -/
structure State.Inv (s : State) : Prop where
  memory : Memory.wf s.mem = true
  window : s.irqWindow = true → s.p.i = true

/-- The 105 byte values that select no instruction, as 30_encoding.md R100 lists them. -/
def undefinedOpcodes : List Nat :=
  [0x02, 0x03, 0x04, 0x07, 0x0B, 0x0C, 0x0F, 0x12, 0x13, 0x14, 0x17, 0x1A, 0x1B, 0x1C, 0x1F, 0x22, 0x23, 0x27, 0x2B, 0x2F] ++
  [0x32, 0x33, 0x34, 0x37, 0x3A, 0x3B, 0x3C, 0x3F, 0x42, 0x43, 0x44, 0x47, 0x4B, 0x4F, 0x52, 0x53, 0x54, 0x57, 0x5A, 0x5B] ++
  [0x5C, 0x5F, 0x62, 0x63, 0x64, 0x67, 0x6B, 0x6F, 0x72, 0x73, 0x74, 0x77, 0x7A, 0x7B, 0x7C, 0x7F, 0x80, 0x82, 0x83, 0x87] ++
  [0x89, 0x8B, 0x8F, 0x92, 0x93, 0x97, 0x9B, 0x9C, 0x9E, 0x9F, 0xA3, 0xA7, 0xAB, 0xAF, 0xB2, 0xB3, 0xB7, 0xBB, 0xBF] ++
  [0xC2, 0xC3, 0xC7, 0xCB, 0xCF, 0xD2, 0xD3, 0xD4, 0xD7, 0xDA, 0xDB, 0xDC, 0xDF, 0xE2, 0xE3, 0xE7, 0xEB, 0xEF] ++
  [0xF2, 0xF3, 0xF4, 0xF7, 0xFA, 0xFB, 0xFC, 0xFF]

/-- The instruction's first byte is the opcode its address mode has in `rows` (an Encoding line of R115 to R185). -/
def HasOpcode (i : Instr) (rows : List (Nat × AddrMode)) : Prop :=
  ∃ row ∈ rows, i.operand.mode = row.2 ∧ (encode i).head? = some (BitVec.ofNat 8 row.1)

/-! ### Frames -/

/-- Every byte of memory is as it was. -/
def SameMemory (s t : State) : Prop := ∀ b : Word, t.byteAt b = s.byteAt b

/-- The NMI latch, the note of R221, the platform and the inputs to come are as they were. -/
structure SameSetting (s t : State) : Prop where
  nmiPending : t.nmiPending = s.nmiPending
  irqWindow : t.irqWindow = s.irqWindow
  platform : t.platform = s.platform
  inputs : t.inputs = s.inputs

/-- The devices' answers to come, the device log and the count of free bytes are as they were. -/
structure SameBus (s t : State) : Prop where
  answers : t.answers = s.answers
  busLog : t.busLog = s.busLog
  freeCount : t.freeCount = s.freeCount

/-- X, Y and S are as they were. -/
structure SameXYS (s t : State) : Prop where
  indexX : t.x = s.x
  indexY : t.y = s.y
  stackPointer : t.s = s.s

/-- Memory after one store of `v` at `ea`: RAM at `ea` holds it; every other byte is as it was, and every byte if `ea` is not
RAM (20_memory.md R52). -/
def ByteStored (s t : State) (ea : Word) (v : Byte) : Prop :=
  ∀ b : Word, t.byteAt b = if b = ea ∧ s.platform.kindAt ea = .ram then v else s.byteAt b

/-- The bus after one store of `v` at `ea`: a device is given it; nothing else happens to the bus. -/
structure BusStored (s t : State) (ea : Word) (v : Byte) : Prop where
  answers : t.answers = s.answers
  busLog : t.busLog = if s.platform.kindAt ea = .device then .write ea v :: s.busLog else s.busLog
  freeCount : t.freeCount = s.freeCount

/-- Memory after two pushes, `hi` at S and then `lo` one below. -/
def TwoPushed (s t : State) (hi lo : Byte) : Prop :=
  ∀ b : Word, t.byteAt b =
    if b = stackAddr s.s ∧ s.platform.kindAt (stackAddr s.s) = .ram then hi
    else if b = stackAddr (s.s - 1) ∧ s.platform.kindAt (stackAddr (s.s - 1)) = .ram then lo
    else s.byteAt b

/-- Memory after three pushes, from S down. -/
def ThreePushed (s t : State) (hi lo status : Byte) : Prop :=
  ∀ b : Word, t.byteAt b =
    if b = stackAddr s.s ∧ s.platform.kindAt (stackAddr s.s) = .ram then hi
    else if b = stackAddr (s.s - 1) ∧ s.platform.kindAt (stackAddr (s.s - 1)) = .ram then lo
    else if b = stackAddr (s.s - 2) ∧ s.platform.kindAt (stackAddr (s.s - 2)) = .ram then status
    else s.byteAt b

/-- RAM or ROM at an address: a read of it gives the memory's byte. -/
def State.memoryAt (s : State) (addr : Word) : Prop := (s.platform.kindAt addr).isMemory = true

/-- RAM at an address. -/
def State.ramAt (s : State) (addr : Word) : Prop := s.platform.kindAt addr = .ram

/-- The 16-bit value two bytes of memory hold, low byte at `addr` (20_memory.md R53). -/
def State.wordAt (s : State) (addr : Word) : Word := joinBytes (s.byteAt (addr + 1)) (s.byteAt addr)

/-- What Interrupt(vector, b, ret) leaves (60_exceptions.md R213): three bytes pushed, S down by three, I set, D kept unless
INT_CLEARS_D, the other flags and A, X, Y kept, PC from the vector read after the pushes. -/
structure InterruptTaken (s t : State) (vector : Word) (b : Bool) (ret : Word) : Prop where
  accumulator : t.a = s.a
  indexX : t.x = s.x
  indexY : t.y = s.y
  stackPointer : t.s = s.s - 3
  flags : t.p = { s.p with i := true, d := if s.platform.intClearsD then false else s.p.d }
  memory : ThreePushed s t (hiByte ret) (loByte ret) (packP b s.p)
  entryPoint : t.pc = (((s.push16 ret).push (packP b s.p)).read16 vector).1
  vectorWord : s.memoryAt vector → s.memoryAt (vector + 1) → 0x0200 ≤ vector.toNat →
    t.pc = s.wordAt vector
  bus : SameBus (((s.push16 ret).push (packP b s.p)).read16 vector).2 t
  irqWindow : t.irqWindow = s.irqWindow
  platform : t.platform = s.platform
  inputs : t.inputs = s.inputs

/-! ### What a shift or rotate replaces (42_shift_rotate.md R134) -/

/-- The value shifted: A, or the byte at EA. -/
def targetValue (target : Target) (s : State) : Byte :=
  match target with
  | .accumulator => s.a
  | .memory m => (m.load s).1

/-- The result went to A, or to the byte at EA with A kept; nothing else of memory or of the bus changed. -/
def TargetReplaced (target : Target) (s t : State) (r : Byte) : Prop :=
  match target with
  | .accumulator => t.a = r ∧ SameMemory s t ∧ SameBus s t
  | .memory m => t.a = s.a ∧ ByteStored s t (m.address s).1 r ∧ BusStored (m.load s).2 t (m.address s).1 r

/-! ### Packed decimal -/

/-- Each nibble of the byte is 0 to 9. -/
def isBcd (b : Byte) : Prop := b.toNat / 16 ≤ 9 ∧ b.toNat % 16 ≤ 9

/-- The number 0 to 99 a packed-BCD byte stands for. -/
def bcdValue (b : Byte) : Nat := b.toNat / 16 * 10 + b.toNat % 16

/-- The packed-BCD byte of a number 0 to 99. -/
def toBcd (n : Nat) : Byte := BitVec.ofNat 8 (n / 10 * 16 + n % 10)

end Sys2Proof.Machine
end

