-- ==== Sys2Proof/Certificates/Slice0/Obligations.lean ====
section
/-! DEFINITION. The statements for the provers. Names of spec/ files are written by number: 40 is 40_arithmetic.md. Where a
statement says `load`, `address`, `read16`, `pull`, `push`, it names the operation the meaning itself uses, applied to the same
state; what these operations do is stated on its own (the statements of 20_memory.md and 30_encoding.md). -/

open Sys2Proof Sys2Proof.Machine

/-! ### Encoding (30_encoding.md) -/

/-- 30 R80, R81, R83: the bytes of any instruction, whatever follows them, decode to it, with every operand. -/
def Obligations.DecodeOfEncode : Prop := ∀ (i : Instr) (rest : List Byte), decode (encode i ++ rest) = .ok (i, rest)

/-- 30 R82, R104: bytes that decode are the bytes of the instruction they decode to: each word has one meaning. -/
def Obligations.EncodeOfDecode : Prop :=
  ∀ (bytes rest : List Byte) (i : Instr), decode bytes = .ok (i, rest) → encode i ++ rest = bytes

/-- 30 R100, R104: the 105 bytes of no row are refused by the decoder and by the step that fetches one; every other byte
selects an instruction, and a step that fetches none of them goes on, unless decimal mode is refused and D is 1 (00 R6). -/
def Obligations.UndefinedOpcodesAreRefused : Prop :=
  (∀ (b : Byte) (rest : List Byte), b.toNat ∈ undefinedOpcodes → decode (b :: rest) = .error (.undefinedOpcode b)) ∧
  (∀ b b1 b2 : Byte, b.toNat ∉ undefinedOpcodes → ∃ i rest, decode [b, b1, b2] = .ok (i, rest)) ∧
  (∀ s : State, s.action = .instruction → (s.latched.busRead s.pc).1.toNat ∈ undefinedOpcodes →
    step s = .refused (.undefinedOpcode (s.latched.busRead s.pc).1 s.pc)) ∧
  (∀ s : State, (s.action = .instruction → (s.latched.busRead s.pc).1.toNat ∉ undefinedOpcodes) →
    s.p.d = false ∨ s.platform.decimalMode = .nmos → ∃ t, step s = .next t)

/-- 30 R99: words written out from the table, one family each. -/
def Obligations.FamilyWordsDecode : Prop :=
  decode [0x69, 0x50] = .ok (.adcImmediate 0x50, []) ∧ decode [0x2C, 0x00, 0x03] = .ok (.bitAbsolute 0x0300, []) ∧
  decode [0x6A] = .ok (.rorAccumulator, []) ∧ decode [0xD0, 0xFB] = .ok (.bne 0xFB, []) ∧
  decode [0x78] = .ok (.sei, []) ∧ decode [0xF6, 0x10] = .ok (.incZeroPageX 0x10, []) ∧
  decode [0x6C, 0xFF, 0x12] = .ok (.jmpIndirect 0x12FF, []) ∧ decode [0x91, 0x10] = .ok (.staIndirectY 0x10, []) ∧
  decode [0x28] = .ok (.plp, []) ∧ decode [0x00] = .ok (.brk, [])

/-- 30 R106: the bit pattern aaabbbcc of the two regular groups of opcodes, cc = 01 and cc = 10. -/
def Obligations.OpcodeBitPattern : Prop :=
  (∀ (i : Instr) (aaa bbb : Nat),
    [Mnemonic.ora, .andA, .eor, .adc, .sta, .lda, .cmp, .sbc][aaa]? = some i.mnemonic →
    [AddrMode.indirectX, .zeroPage, .immediate, .absolute, .indirectY, .zeroPageX, .absoluteY, .absoluteX][bbb]? =
      some i.operand.mode →
    (encode i).head? = some (BitVec.ofNat 8 (aaa * 32 + bbb * 4 + 1))) ∧
  (∀ (i : Instr) (aaa bbb : Nat),
    [Mnemonic.asl, .rol, .lsr, .ror, .stx, .ldx, .dec, .inc][aaa]? = some i.mnemonic →
    (bbb, i.operand.mode) ∈ [(0, AddrMode.immediate), (1, .zeroPage), (2, .accumulator), (3, .absolute), (5, .zeroPageX),
      (5, .zeroPageY), (7, .absoluteX), (7, .absoluteY)] →
    (encode i).head? = some (BitVec.ofNat 8 (aaa * 32 + bbb * 4 + 2)))

/-! ### The step (00_scope.md R10) and the environment -/

/-- 00 R10 (4), 30 R104: at a boundary that runs an instruction, when the bytes of memory at PC decode to `i`, the step is
`exec i` on the latched state, followed by the note of 60 R221 (the model's own field, assumption 10). With no input given the
latched state is the state. -/
def Obligations.StepRunsDecodedInstruction : Prop :=
  ∀ (s : State) (i : Instr) (rest : List Byte),
    s.action = .instruction →
    (∀ k < i.length, s.memoryAt (s.pc + BitVec.ofNat 16 k)) →
    decode [s.byteAt s.pc, s.byteAt (s.pc + 1), s.byteAt (s.pc + 2)] = .ok (i, rest) →
    step s = runInstr i s.latched ∧
    (∀ t, exec i s.latched = .next t →
      step s = .next { t with irqWindow := (i == .sei || i == .plp) && !s.p.i && t.p.i }) ∧
    (s.inputs = [] → s.latched = s)

/-- 00 R6, R10, 60 R210: a step has no fault outcome, and the two points at which the spec gives no meaning are its only
refusals: an undefined opcode, named with its byte and PC, and ADC or SBC in decimal mode where the platform refuses it. Reset,
NMI and IRQ are never refused, and no instruction halts the machine (R11). -/
def Obligations.OnlyTwoRefusalPoints : Prop :=
  (∀ (s : State) (r : Fault), step s ≠ .fault r) ∧
  (∀ (s : State) (r : Refusal), step s = .refused r →
    s.action = .instruction ∧
      ((s.latched.busRead s.pc).1.toNat ∈ undefinedOpcodes ∧ r = .undefinedOpcode (s.latched.busRead s.pc).1 s.pc ∨
        s.p.d = true ∧ s.platform.decimalMode = .refuse ∧ r = .decimalMode)) ∧
  (∀ (i : Instr) (s : State),
    exec i s = .refused .decimalMode ↔ i.mnemonic ∈ [.adc, .sbc] ∧ s.p.d = true ∧ s.platform.decimalMode = .refuse)

/-- 00 R11, 92 D15: the end of a run, PC at a stated address at an instruction boundary; the choice of this end is the model's
(assumption 25). A run ends with the first state that the steps from `s` bring to `stop`, and it is unfinished after `n` steps
exactly when none of the states up to there has PC at `stop`. -/
def Obligations.RunEndsAtStatedPc : Prop :=
  ∀ (stop : Word) (n : Nat) (s t : State),
    (s.runTo stop n = .ended t ↔
      ∃ k ≤ n, core.run k s = .next t ∧ t.pc = stop ∧ ∀ j < k, ∀ u : State, core.run j s = .next u → u.pc ≠ stop) ∧
    (s.runTo stop n = .unfinished t ↔
      core.run n s = .next t ∧ ∀ j ≤ n, ∀ u : State, core.run j s = .next u → u.pc ≠ stop)

/-- 60 R216: the Reset sequence, from every state: S down by three with nothing written, I set, the NMI latch cleared, PC
from the Reset vector, everything else kept (V as an SO edge at this boundary leaves it). That a reset comes as an input
(assumption 8), lands at an instruction boundary (19) and lets an SO edge there set V first (11) are the model's choices. -/
def Obligations.ResetSequence : Prop :=
  ∀ s : State, s.input.resetLine = true →
    ∃ t, step s = .next t ∧ t.s = s.s - 3 ∧ t.p.i = true ∧ t.nmiPending = false ∧
      t.pc = (s.read16 0xFFFC).1 ∧ (s.memoryAt 0xFFFC → s.memoryAt 0xFFFD → t.pc = s.wordAt 0xFFFC) ∧
      t.a = s.a ∧ t.x = s.x ∧ t.y = s.y ∧ t.p.n = s.p.n ∧ t.p.z = s.p.z ∧ t.p.c = s.p.c ∧
      t.p.v = (s.p.v || s.input.soEdge) ∧ (s.platform.intClearsD = false → t.p.d = s.p.d) ∧
      SameMemory s t ∧ SameBus (s.read16 0xFFFC).2 t ∧ t.platform = s.platform ∧ t.inputs = s.inputs.tail ∧
      t.irqWindow = false

/-- 60 R213: what Interrupt(vector, b, ret) does, from every state. -/
def Obligations.InterruptEntry : Prop :=
  ∀ (s : State) (vector : Word) (b : Bool) (ret : Word), InterruptTaken s (s.interrupt vector b ret) vector b ret

/-- 60 R215, R218: with no reset, a pending NMI or an NMI edge, and the chip taking it here, the step is the NMI entry,
whatever I is; the latch is cleared. How the edge and the choice to take it reach the machine are the model's (assumptions 8,
9, 11). -/
def Obligations.NmiEntry : Prop :=
  ∀ s : State, s.input.resetLine = false → (s.nmiPending || s.input.nmiEdge) = true → s.input.accept = true →
    ∃ t, step s = .next t ∧ t.nmiPending = false ∧ t.irqWindow = false ∧
      ∃ u, InterruptTaken { s.latched with nmiPending := false } u 0xFFFA false s.pc ∧ t = { u with irqWindow := false }

/-- 60 R214, R218: with no reset and no NMI, the IRQ line asserted, I = 0, and the chip taking it here, the step is the IRQ
entry; the pushed status has bit 4 = 0. How the line and the choice to take it reach the machine are the model's (assumptions
8, 9, 11). -/
def Obligations.IrqEntry : Prop :=
  ∀ s : State, s.input.resetLine = false → s.nmiPending = false → s.input.nmiEdge = false → s.input.irqLine = true →
    s.p.i = false → s.input.accept = true →
    ∃ t, step s = .next t ∧ t.nmiPending = false ∧ t.irqWindow = false ∧
      ∃ u, InterruptTaken s.latched u 0xFFFE false s.pc ∧ t = { u with irqWindow := false }

/-- 10 R32, 60 R217: with I = 1 an asserted IRQ line changes nothing: away from the boundary R221 names, the step is the one
with the line not asserted. The line as an input and the field `irqWindow` are the model's (assumptions 8, 10). -/
def Obligations.MaskedIrqIsInvisible : Prop :=
  ∀ (s : State) (e : StepInput) (rest : List StepInput), s.inputs = e :: rest → s.p.i = true → s.irqWindow = false →
    step s = step { s with inputs := { e with irqLine := false } :: rest }

/-- 60 R221: the may-rule. Where the chip does not take an interrupt, the step is the ordinary instruction step; and right
after SEI took I from 0 to 1, an asserted IRQ may still be entered, pushing I = 1. The fields `accept` and `irqWindow` are
the model's (assumptions 9, 10). -/
def Obligations.InterruptMayBeDeferred : Prop :=
  (∀ s : State, s.input.resetLine = false → s.input.accept = false → step s = runNext s.latched) ∧
  (∀ s : State, s.irqWindow = true → s.p.i = true → s.input.resetLine = false → s.nmiPending = false →
    s.input.nmiEdge = false → s.input.irqLine = true → s.input.accept = true →
    ∃ t u, step s = .next t ∧ InterruptTaken s.latched u 0xFFFE false s.pc ∧ t = { u with irqWindow := false } ∧
      (packP false s.latched.p).getLsbD 2 = true)

/-! ### Invariants that every step keeps -/

/-- The machine's invariant (canonical memory, 20 R50; R221's boundary only with I = 1) is kept by every step of every state.
Both parts speak of the model's own forms (assumptions 3, 10). -/
def Obligations.StepKeepsInvariant : Prop := ∀ s t : State, s.Inv → step s = .next t → t.Inv

/-- The state after reset meets the invariant. -/
def Obligations.ResetMeetsInvariant : Prop := State.reset.Inv

/-- 10 R40, 70 R240: what reset leaves, for the values the spec gives: I set, no NMI pending, PC the word the Reset vector
holds. (The other values of `State.reset` are the model's choices, assumptions 1 to 5, and are not stated.) -/
def Obligations.ResetLeavesSpecValues : Prop :=
  State.reset.p.i = true ∧ State.reset.nmiPending = false ∧ State.reset.pc = (State.reset.read16 0xFFFC).1

/-- 20 R52: no step changes a byte that is not RAM, and none changes the memory map or the variant. -/
def Obligations.StepKeepsRomAndPlatform : Prop :=
  ∀ s t : State, step s = .next t →
    t.platform = s.platform ∧ ∀ b : Word, s.platform.kindAt b ≠ .ram → t.byteAt b = s.byteAt b

/-! ### Whole-machine rules over all instructions -/

/-- 10 R21 to R24: only the instructions named there write A, X, Y, S. -/
def Obligations.RegisterWriters : Prop :=
  ∀ (i : Instr) (s t : State), exec i s = .next t →
    (i.mnemonic ∉ [.adc, .andA, .eor, .lda, .ora, .pla, .sbc, .txa, .tya] → i.operand ≠ .accumulator → t.a = s.a) ∧
    (i.mnemonic ∉ [.dex, .inx, .ldx, .tax, .tsx] → t.x = s.x) ∧
    (i.mnemonic ∉ [.dey, .iny, .ldy, .tay] → t.y = s.y) ∧
    (i.mnemonic ∉ [.txs, .pha, .php, .jsr, .brk, .pla, .plp, .rts, .rti] → t.s = s.s)

/-- 10 R42: only the instructions the flag table marks write each flag. -/
def Obligations.FlagWriters : Prop :=
  ∀ (i : Instr) (s t : State), exec i s = .next t →
    (i.mnemonic ∉ [.adc, .sbc, .bit, .clv, .plp, .rti] → t.p.v = s.p.v) ∧
    (i.mnemonic ∉ [.cld, .sed, .plp, .rti] → i.mnemonic ≠ .brk ∨ s.platform.intClearsD = false → t.p.d = s.p.d) ∧
    (i.mnemonic ∉ [.cli, .sei, .plp, .rti, .brk] → t.p.i = s.p.i) ∧
    (i.mnemonic ∉ [.adc, .sbc, .asl, .rol, .ror, .lsr, .cmp, .cpx, .cpy, .plp, .rti, .clc, .sec] → t.p.c = s.p.c) ∧
    (i.mnemonic ∉ [.adc, .sbc, .andA, .eor, .ora, .bit, .asl, .rol, .ror, .lsr, .cmp, .cpx, .cpy, .dec, .dex, .dey, .inc, .inx,
      .iny, .lda, .ldx, .ldy, .tax, .tay, .tsx, .txa, .tya, .pla, .plp, .rti] → t.p.n = s.p.n ∧ t.p.z = s.p.z) ∧
    (i.mnemonic ∈ [.bcc, .bcs, .beq, .bmi, .bne, .bpl, .bvc, .bvs, .jmp, .jsr, .rts, .nop, .pha, .php, .sta, .stx, .sty,
      .txs] → t.p = s.p)

/-- 10 R26: an instruction that is no branch, jump, call, return, break leaves PC at the next instruction in sequence. -/
def Obligations.SequentialPc : Prop :=
  ∀ (i : Instr) (s t : State), exec i s = .next t →
    i.mnemonic ∉ [.bcc, .bcs, .beq, .bmi, .bne, .bpl, .bvc, .bvs, .jmp, .jsr, .rts, .brk, .rti] →
    t.pc.toNat = (s.pc.toNat + i.length) % 65536

/-- 20 R56: an instruction that is no store, read-modify-write of memory or push leaves every byte of memory. -/
def Obligations.NonStoringKeepsMemory : Prop :=
  ∀ (i : Instr) (s t : State), exec i s = .next t →
    (i.mnemonic ∉ [.sta, .stx, .sty, .asl, .lsr, .rol, .ror, .inc, .dec, .pha, .php, .jsr, .brk] ∨
      i.operand = .accumulator) → SameMemory s t

/-! ### The memory map, 16-bit reads, the stack, the address modes -/

/-- 20 R52: what a read and a write do at RAM, ROM, a device and open bus. What the device and open bus fields record, and the
free byte, are the model's (assumptions 6, 7). -/
def Obligations.MemoryMap : Prop :=
  ∀ (s : State) (addr : Word) (v : Byte),
    (s.ramAt addr → s.busRead addr = (s.byteAt addr, s) ∧ ((s.busWrite addr v).busRead addr).1 = v ∧
      ByteStored s (s.busWrite addr v) addr v ∧ SameBus s (s.busWrite addr v)) ∧
    (s.platform.kindAt addr = .rom → s.busRead addr = (s.byteAt addr, s) ∧ s.busWrite addr v = s) ∧
    (s.platform.kindAt addr = .device →
      (∀ w rest, s.answers = w :: rest →
        s.busRead addr = (w, { s with answers := rest, busLog := .read addr w :: s.busLog })) ∧
      s.busWrite addr v = { s with busLog := .write addr v :: s.busLog }) ∧
    (s.platform.kindAt addr = .openBus →
      s.busRead addr = (Config.unspecifiedByte s.freeCount, { s with freeCount := s.freeCount + 1 }) ∧
      s.busWrite addr v = s)

/-- 20 R54: Read16, Read16ZP and Read16Page: two byte reads, the low byte first, joined, with where each takes its high byte;
over memory nothing changes and the two bytes are memory's. -/
def Obligations.SixteenBitReads : Prop :=
  ∀ (s : State) (addr : Word) (zp : Byte),
    let pair := fun lo hi : Word => let l := s.busRead lo; let h := l.2.busRead hi; (joinBytes h.1 l.1, h.2)
    let next := BitVec.ofNat 16 ((addr.toNat + 1) % 65536)
    let nextZP := BitVec.ofNat 16 ((zp.toNat + 1) % 256)
    let nextInPage := BitVec.ofNat 16 (addr.toNat / 256 * 256 + (addr.toNat + 1) % 256)
    s.read16 addr = pair addr next ∧ s.read16ZP zp = pair (BitVec.ofNat 16 zp.toNat) nextZP ∧
    s.read16Page addr = pair addr nextInPage ∧
    (s.memoryAt addr → s.memoryAt next → s.read16 addr = (joinBytes (s.byteAt next) (s.byteAt addr), s)) ∧
    (s.memoryAt (BitVec.ofNat 16 zp.toNat) → s.memoryAt nextZP →
      s.read16ZP zp = (joinBytes (s.byteAt nextZP) (s.byteAt (BitVec.ofNat 16 zp.toNat)), s)) ∧
    (s.memoryAt addr → s.memoryAt nextInPage →
      s.read16Page addr = (joinBytes (s.byteAt nextInPage) (s.byteAt addr), s)) ∧
    ∀ hi lo : Byte, (joinBytes hi lo).toNat = hi.toNat * 256 + lo.toNat

/-- 20 R58: Push stores at 0x0100 + S and S goes down; Pull takes S up and reads at 0x0100 + S; both wrap inside page one, and
nothing else changes. What is pulled after a push into RAM is what was pushed. -/
def Obligations.PushAndPull : Prop :=
  ∀ (s : State) (v : Byte),
    (s.push v).s = s.s - 1 ∧ (stackAddr s.s).toNat = 0x0100 + s.s.toNat ∧
    ByteStored s (s.push v) (stackAddr s.s) v ∧ BusStored s (s.push v) (stackAddr s.s) v ∧ SameSetting s (s.push v) ∧
    (s.push v).p = s.p ∧ (s.push v).pc = s.pc ∧ (s.push v).a = s.a ∧ (s.push v).x = s.x ∧ (s.push v).y = s.y ∧
    s.pull = State.busRead { s with s := s.s + 1 } (BitVec.ofNat 16 (0x0100 + (s.s.toNat + 1) % 256)) ∧
    (s.memoryAt (stackAddr (s.s + 1)) → s.pull = (s.byteAt (stackAddr (s.s + 1)), { s with s := s.s + 1 })) ∧
    (s.ramAt (stackAddr s.s) → (s.push v).pull.1 = v ∧ (s.push v).pull.2.s = s.s)

/-- 30 R86 to R93: the effective address of each memory mode, with its wrap-around. Evaluating a mode that has no pointer
changes nothing; the two indirect modes read their pointer with Read16ZP, and over memory change nothing. -/
def Obligations.EffectiveAddresses : Prop :=
  ∀ (s : State) (zp : Byte) (addr : Word),
    let ptr := BitVec.ofNat 8 ((zp.toNat + s.x.toNat) % 256)
    (MemMode.zeroPage zp).address s = (BitVec.ofNat 16 zp.toNat, s) ∧
    (MemMode.zeroPageX zp).address s = (BitVec.ofNat 16 ((zp.toNat + s.x.toNat) % 256), s) ∧
    (MemMode.zeroPageY zp).address s = (BitVec.ofNat 16 ((zp.toNat + s.y.toNat) % 256), s) ∧
    (MemMode.absolute addr).address s = (addr, s) ∧
    (MemMode.absoluteX addr).address s = (BitVec.ofNat 16 ((addr.toNat + s.x.toNat) % 65536), s) ∧
    (MemMode.absoluteY addr).address s = (BitVec.ofNat 16 ((addr.toNat + s.y.toNat) % 65536), s) ∧
    (MemMode.indirectX zp).address s = s.read16ZP ptr ∧
    (MemMode.indirectY zp).address s =
      (BitVec.ofNat 16 (((s.read16ZP zp).1.toNat + s.y.toNat) % 65536), (s.read16ZP zp).2) ∧
    ((∀ b, s.memoryAt b) →
      (MemMode.indirectX zp).address s =
        (joinBytes (s.byteAt (BitVec.ofNat 16 ((zp.toNat + s.x.toNat + 1) % 256)))
          (s.byteAt (BitVec.ofNat 16 ((zp.toNat + s.x.toNat) % 256))), s) ∧
      (MemMode.indirectY zp).address s =
        (BitVec.ofNat 16 (((s.byteAt (BitVec.ofNat 16 ((zp.toNat + 1) % 256))).toNat * 256 +
          (s.byteAt (BitVec.ofNat 16 zp.toNat)).toNat + s.y.toNat) % 65536), s))

/-! ### Arithmetic helpers (40_arithmetic.md) and the status byte (10_state.md) -/

/-- 40 R110: AddBin: the sum modulo 256, C its carry out, V 1 exactly when the signed sum is out of range, N and Z. -/
def Obligations.AddBinIsExactSum : Prop :=
  ∀ (a m : Byte) (c : Bool),
    let r := addBin a m c
    let t := a.toNat + m.toNat + c.toNat
    r.r.toNat = t % 256 ∧ (r.c = true ↔ 256 ≤ t) ∧
    (r.v = true ↔ a.toInt + m.toInt + c.toNat < -128 ∨ 127 < a.toInt + m.toInt + c.toNat) ∧
    (r.v = true ↔ a.getLsbD 7 = m.getLsbD 7 ∧ r.r.getLsbD 7 ≠ a.getLsbD 7) ∧
    r.n = r.r.getLsbD 7 ∧ (r.z = true ↔ r.r = 0)

/-- 40 R111: AddDec's byte and four flags on every pair of bytes, valid BCD or not: the low digit adjusted, then N and V taken,
then the high digit adjusted; Z from the binary sum; and the decimal sum where both bytes are valid BCD. With DECIMAL_MODE =
refuse, ADC in decimal mode is refused. -/
def Obligations.AddDecOnEveryOperand : Prop :=
  ∀ (a m : Byte) (c : Bool),
    let lo := a.toNat % 16 + m.toNat % 16 + c.toNat
    let low := if 10 ≤ lo then (lo + 6) % 16 + 16 else lo
    let sum := a.toNat / 16 * 16 + m.toNat / 16 * 16 + low
    let total := if 160 ≤ sum then sum + 96 else sum
    (addDec a m c).r.toNat = total % 256 ∧ ((addDec a m c).c = true ↔ 256 ≤ total) ∧
    ((addDec a m c).n = true ↔ sum / 128 % 2 = 1) ∧
    ((addDec a m c).v = true ↔ a.toNat / 128 = m.toNat / 128 ∧ sum / 128 % 2 ≠ a.toNat / 128) ∧
    ((addDec a m c).z = true ↔ (a.toNat + m.toNat + c.toNat) % 256 = 0) ∧
    (isBcd a → isBcd m →
      (addDec a m c).r = toBcd ((bcdValue a + bcdValue m + c.toNat) % 100) ∧
      ((addDec a m c).c = true ↔ 100 ≤ bcdValue a + bcdValue m + c.toNat)) ∧
    (∀ (i : Instr) (s : State), i.mnemonic = .adc → s.p.d = true → s.platform.decimalMode = .refuse →
      exec i s = .refused .decimalMode)

/-- 40 R112: SubBin: the difference modulo 256, C the complement of the borrow, V the signed range; and SubBin(a, m, c) is
AddBin(a, ~m, c) in all five results. -/
def Obligations.SubBinIsExactDifference : Prop :=
  ∀ (a m : Byte) (c : Bool),
    let r := subBin a m c
    let t : Int := (a.toNat : Int) - m.toNat - (1 - c.toNat)
    (r.r.toNat : Int) = t % 256 ∧ (r.c = true ↔ 0 ≤ t) ∧
    (r.v = true ↔ a.toInt - m.toInt - (1 - c.toNat) < -128 ∨ 127 < a.toInt - m.toInt - (1 - c.toNat)) ∧
    r.n = r.r.getLsbD 7 ∧ (r.z = true ↔ r.r = 0) ∧ r = addBin a (~~~m) c

/-- 40 R113: SubDec's byte and four flags on every pair of bytes, valid BCD or not: the low digit adjusted, then the high digit;
all four flags are the binary ones; and the decimal difference where both bytes are valid BCD. With DECIMAL_MODE = refuse, SBC
in decimal mode is refused. -/
def Obligations.SubDecOnEveryOperand : Prop :=
  ∀ (a m : Byte) (c : Bool),
    let lo : Int := (a.toNat : Int) % 16 - (m.toNat : Int) % 16 + c.toNat - 1
    let low : Int := if lo < 0 then (lo - 6) % 16 - 16 else lo
    let diff : Int := (a.toNat : Int) / 16 * 16 - (m.toNat : Int) / 16 * 16 + low
    ((subDec a m c).r.toNat : Int) = (if diff < 0 then diff - 96 else diff) % 256 ∧
    (subDec a m c).c = (subBin a m c).c ∧ (subDec a m c).v = (subBin a m c).v ∧
    (subDec a m c).n = (subBin a m c).n ∧ (subDec a m c).z = (subBin a m c).z ∧
    (isBcd a → isBcd m →
      (subDec a m c).r = toBcd ((((bcdValue a : Int) - bcdValue m - (1 - c.toNat)) % 100).toNat) ∧
      ((subDec a m c).c = true ↔ (0 : Int) ≤ (bcdValue a : Int) - bcdValue m - (1 - c.toNat))) ∧
    (∀ (i : Instr) (s : State), i.mnemonic = .sbc → s.p.d = true → s.platform.decimalMode = .refuse →
      exec i s = .refused .decimalMode)

/-- 10 R35 to R37: the bits of the pushed status byte, and unpacking it gives the flags back whatever bit 4 was. -/
def Obligations.StatusByteRoundTrip : Prop :=
  ∀ (b : Bool) (p : Flags) (v : Byte),
    (packP b p).toNat = p.n.toNat * 128 + p.v.toNat * 64 + 32 + b.toNat * 16 + p.d.toNat * 8 + p.i.toNat * 4 +
      p.z.toNat * 2 + p.c.toNat ∧
    unpackP (packP b p) = p ∧
    packP b (unpackP v) = (v &&& 0xCF) ||| 0x20 ||| (if b then 0x10 else 0)

/-! ### Arithmetic, compare, logic -/

/-- 40 R115: ADC completes in each of its eight modes, where D is 0 or DECIMAL_MODE is nmos (else it is refused:
OnlyTwoRefusalPoints); A and N, V, Z, C from the addition D chooses. -/
def Obligations.AdcAddsMemoryAndCarry : Prop :=
  ∀ (i : Instr) (s : State), i.mnemonic = .adc → s.p.d = false ∨ s.platform.decimalMode = .nmos →
    ∃ (src : Source) (t : State), i.operand = src.operand ∧
    HasOpcode i [(0x69, .immediate), (0x65, .zeroPage), (0x75, .zeroPageX), (0x6D, .absolute), (0x7D, .absoluteX),
      (0x79, .absoluteY), (0x61, .indirectX), (0x71, .indirectY)] ∧
    exec i s = .next t ∧
    (let r := if s.p.d then addDec s.a (src.load s).1 s.p.c else addBin s.a (src.load s).1 s.p.c
     t.a = r.r ∧ t.p = { s.p with n := r.n, v := r.v, z := r.z, c := r.c }) ∧
    t.pc = s.pc + BitVec.ofNat 16 i.length ∧ SameXYS s t ∧ SameMemory s t ∧ SameSetting s t ∧ SameBus (src.load s).2 t

/-- 40 R116: SBC completes in each of its eight modes, where D is 0 or DECIMAL_MODE is nmos (else it is refused:
OnlyTwoRefusalPoints); A and N, V, Z, C from the subtraction D chooses. -/
def Obligations.SbcSubtractsWithBorrow : Prop :=
  ∀ (i : Instr) (s : State), i.mnemonic = .sbc → s.p.d = false ∨ s.platform.decimalMode = .nmos →
    ∃ (src : Source) (t : State), i.operand = src.operand ∧
    HasOpcode i [(0xE9, .immediate), (0xE5, .zeroPage), (0xF5, .zeroPageX), (0xED, .absolute), (0xFD, .absoluteX),
      (0xF9, .absoluteY), (0xE1, .indirectX), (0xF1, .indirectY)] ∧
    exec i s = .next t ∧
    (let r := if s.p.d then subDec s.a (src.load s).1 s.p.c else subBin s.a (src.load s).1 s.p.c
     t.a = r.r ∧ t.p = { s.p with n := r.n, v := r.v, z := r.z, c := r.c }) ∧
    t.pc = s.pc + BitVec.ofNat 16 i.length ∧ SameXYS s t ∧ SameMemory s t ∧ SameSetting s t ∧ SameBus (src.load s).2 t

/-- 40 R114, R117 to R119: CMP (eight modes), CPX and CPY (three each) complete; C and Z compare the register and M unsigned, N
is bit 7 of the difference; nothing else is written. -/
def Obligations.ComparesWriteThreeFlags : Prop :=
  ∀ (i : Instr) (s : State) (reg : Byte) (rows : List (Nat × AddrMode)),
    (i.mnemonic, reg, rows) ∈
      [(.cmp, s.a, [(0xC9, .immediate), (0xC5, .zeroPage), (0xD5, .zeroPageX), (0xCD, .absolute), (0xDD, .absoluteX),
        (0xD9, .absoluteY), (0xC1, .indirectX), (0xD1, .indirectY)]),
       (.cpx, s.x, [(0xE0, .immediate), (0xE4, .zeroPage), (0xEC, .absolute)]),
       (.cpy, s.y, [(0xC0, .immediate), (0xC4, .zeroPage), (0xCC, .absolute)])] →
    ∃ (src : Source) (t : State), i.operand = src.operand ∧ HasOpcode i rows ∧ exec i s = .next t ∧
      (let m := (src.load s).1
       t.p = { s.p with
         c := decide (m.toNat ≤ reg.toNat)
         z := decide (reg = m)
         n := decide (128 ≤ (reg.toNat + 256 - m.toNat) % 256) }) ∧
      t.a = s.a ∧ t.pc = s.pc + BitVec.ofNat 16 i.length ∧ SameXYS s t ∧ SameMemory s t ∧ SameSetting s t ∧
      SameBus (src.load s).2 t

/-- 41 R125 to R127: AND, EOR, ORA complete in each of their eight modes; A is the bitwise result, N and Z from it. -/
def Obligations.LogicWritesAccumulator : Prop :=
  ∀ (i : Instr) (s : State) (op : Bool → Bool → Bool) (rows : List (Nat × AddrMode)),
    (i.mnemonic = .andA ∧ op = and ∧
        rows = [(0x29, .immediate), (0x25, .zeroPage), (0x35, .zeroPageX), (0x2D, .absolute), (0x3D, .absoluteX),
          (0x39, .absoluteY), (0x21, .indirectX), (0x31, .indirectY)] ∨
      i.mnemonic = .eor ∧ op = xor ∧
        rows = [(0x49, .immediate), (0x45, .zeroPage), (0x55, .zeroPageX), (0x4D, .absolute), (0x5D, .absoluteX),
          (0x59, .absoluteY), (0x41, .indirectX), (0x51, .indirectY)] ∨
      i.mnemonic = .ora ∧ op = or ∧
        rows = [(0x09, .immediate), (0x05, .zeroPage), (0x15, .zeroPageX), (0x0D, .absolute), (0x1D, .absoluteX),
          (0x19, .absoluteY), (0x01, .indirectX), (0x11, .indirectY)]) →
    ∃ (src : Source) (t : State), i.operand = src.operand ∧ HasOpcode i rows ∧ exec i s = .next t ∧
      (∀ k < 8, t.a.getLsbD k = op (s.a.getLsbD k) ((src.load s).1.getLsbD k)) ∧
      t.p = { s.p with n := t.a.getLsbD 7, z := decide (t.a = 0) } ∧
      t.pc = s.pc + BitVec.ofNat 16 i.length ∧ SameXYS s t ∧ SameMemory s t ∧ SameSetting s t ∧
      SameBus (src.load s).2 t

/-- 41 R128: BIT completes in both modes: Z from A and M, N and V from bits 7 and 6 of M; nothing else is written. -/
def Obligations.BitTestsMemory : Prop :=
  ∀ (i : Instr) (s : State), i.mnemonic = .bit → ∃ (mode : MemMode) (t : State), i.operand = .memory mode ∧
    HasOpcode i [(0x24, .zeroPage), (0x2C, .absolute)] ∧ exec i s = .next t ∧
    (let m := (mode.load s).1
     (t.p.z = true ↔ ∀ k < 8, (s.a.getLsbD k && m.getLsbD k) = false) ∧
     t.p = { s.p with z := t.p.z, n := m.getLsbD 7, v := m.getLsbD 6 }) ∧
    t.a = s.a ∧ t.pc = s.pc + BitVec.ofNat 16 i.length ∧ SameXYS s t ∧ SameMemory s t ∧ SameSetting s t ∧
    SameBus (mode.load s).2 t

/-! ### Shifts and rotates -/

/-- 42 R130, R134: ASL completes in its five modes: the byte doubled modulo 256, C the old bit 7, N and Z from the result. -/
def Obligations.AslShiftsLeft : Prop :=
  ∀ (i : Instr) (s : State), i.mnemonic = .asl → ∃ (target : Target) (t : State), i.operand = target.operand ∧
    HasOpcode i [(0x06, .zeroPage), (0x16, .zeroPageX), (0x0E, .absolute), (0x1E, .absoluteX), (0x0A, .accumulator)] ∧
    exec i s = .next t ∧
    (let v := (targetValue target s).toNat
     let r := v * 2 % 256
     TargetReplaced target s t (BitVec.ofNat 8 r) ∧
     t.p = { s.p with c := decide (128 ≤ v), n := decide (128 ≤ r), z := decide (r = 0) }) ∧
    t.pc = s.pc + BitVec.ofNat 16 i.length ∧ SameXYS s t ∧ SameSetting s t

/-- 42 R131, R134: LSR completes in its five modes: the byte halved, C the old bit 0, N = 0, Z from the result. -/
def Obligations.LsrShiftsRight : Prop :=
  ∀ (i : Instr) (s : State), i.mnemonic = .lsr → ∃ (target : Target) (t : State), i.operand = target.operand ∧
    HasOpcode i [(0x46, .zeroPage), (0x56, .zeroPageX), (0x4E, .absolute), (0x5E, .absoluteX), (0x4A, .accumulator)] ∧
    exec i s = .next t ∧
    (let v := (targetValue target s).toNat
     let r := v / 2
     TargetReplaced target s t (BitVec.ofNat 8 r) ∧
     t.p = { s.p with c := decide (v % 2 = 1), n := false, z := decide (r = 0) }) ∧
    t.pc = s.pc + BitVec.ofNat 16 i.length ∧ SameXYS s t ∧ SameSetting s t

/-- 42 R132, R134: ROL completes in its five modes: the byte doubled modulo 256 plus the old C, C the old bit 7. -/
def Obligations.RolRotatesLeft : Prop :=
  ∀ (i : Instr) (s : State), i.mnemonic = .rol → ∃ (target : Target) (t : State), i.operand = target.operand ∧
    HasOpcode i [(0x26, .zeroPage), (0x36, .zeroPageX), (0x2E, .absolute), (0x3E, .absoluteX), (0x2A, .accumulator)] ∧
    exec i s = .next t ∧
    (let v := (targetValue target s).toNat
     let r := v * 2 % 256 + s.p.c.toNat
     TargetReplaced target s t (BitVec.ofNat 8 r) ∧
     t.p = { s.p with c := decide (128 ≤ v), n := decide (128 ≤ r), z := decide (r = 0) }) ∧
    t.pc = s.pc + BitVec.ofNat 16 i.length ∧ SameXYS s t ∧ SameSetting s t

/-- 42 R133, R134: ROR completes in its five modes: the byte halved plus 128 times the old C, C the old bit 0, N the old C. -/
def Obligations.RorRotatesRight : Prop :=
  ∀ (i : Instr) (s : State), i.mnemonic = .ror → ∃ (target : Target) (t : State), i.operand = target.operand ∧
    HasOpcode i [(0x66, .zeroPage), (0x76, .zeroPageX), (0x6E, .absolute), (0x7E, .absoluteX), (0x6A, .accumulator)] ∧
    exec i s = .next t ∧
    (let v := (targetValue target s).toNat
     let r := v / 2 + s.p.c.toNat * 128
     TargetReplaced target s t (BitVec.ofNat 8 r) ∧
     t.p = { s.p with c := decide (v % 2 = 1), n := s.p.c, z := decide (r = 0) }) ∧
    t.pc = s.pc + BitVec.ofNat 16 i.length ∧ SameXYS s t ∧ SameSetting s t

/-! ### Branches, flags, increments -/

/-- 43 R140 to R148: each branch completes and changes PC only: to the signed displacement from the next instruction, modulo
65536, if its condition holds, else to the next instruction. -/
def Obligations.BranchesMovePcOnly : Prop :=
  ∀ (i : Instr) (s : State) (op : Byte) (cond : Bool),
    (i.mnemonic, op, cond) ∈
      [(.bcc, 0x90, !s.p.c), (.bcs, 0xB0, s.p.c), (.beq, 0xF0, s.p.z), (.bmi, 0x30, s.p.n), (.bne, 0xD0, !s.p.z),
       (.bpl, 0x10, !s.p.n), (.bvc, 0x50, !s.p.v), (.bvs, 0x70, s.p.v)] →
    ∃ (disp : Byte) (pc' : Word), i.operand = .relative disp ∧ encode i = [op, disp] ∧
      exec i s = .next { s with pc := pc' } ∧
      (pc'.toNat : Int) = ((s.pc.toNat : Int) + 2 + if cond then disp.toInt else 0) % 65536

/-- 44 R150 to R156: each flag instruction completes, writes its one flag with its constant, moves PC by one, and changes
nothing else. -/
def Obligations.FlagInstructions : Prop :=
  ∀ s : State,
    (encode .clc = [0x18] ∧ exec .clc s = .next { s with p := { s.p with c := false }, pc := s.pc + 1 }) ∧
    (encode .cld = [0xD8] ∧ exec .cld s = .next { s with p := { s.p with d := false }, pc := s.pc + 1 }) ∧
    (encode .cli = [0x58] ∧ exec .cli s = .next { s with p := { s.p with i := false }, pc := s.pc + 1 }) ∧
    (encode .clv = [0xB8] ∧ exec .clv s = .next { s with p := { s.p with v := false }, pc := s.pc + 1 }) ∧
    (encode .sec = [0x38] ∧ exec .sec s = .next { s with p := { s.p with c := true }, pc := s.pc + 1 }) ∧
    (encode .sed = [0xF8] ∧ exec .sed s = .next { s with p := { s.p with d := true }, pc := s.pc + 1 }) ∧
    (encode .sei = [0x78] ∧ exec .sei s = .next { s with p := { s.p with i := true }, pc := s.pc + 1 })

/-- 45 R160, R163: DEC and INC complete in their four modes: the byte at EA one less or one more modulo 256, N and Z from it;
no other byte, no other flag, no register. -/
def Obligations.DecIncMemory : Prop :=
  ∀ (i : Instr) (s : State) (delta : Nat) (rows : List (Nat × AddrMode)),
    (i.mnemonic, delta, rows) ∈
      [(.dec, 255, [(0xC6, .zeroPage), (0xD6, .zeroPageX), (0xCE, .absolute), (0xDE, .absoluteX)]),
       (.inc, 1, [(0xE6, .zeroPage), (0xF6, .zeroPageX), (0xEE, .absolute), (0xFE, .absoluteX)])] →
    ∃ (m : MemMode) (t : State), i.operand = .memory m ∧ HasOpcode i rows ∧ exec i s = .next t ∧
      (let r := ((m.load s).1.toNat + delta) % 256
       ByteStored s t (m.address s).1 (BitVec.ofNat 8 r) ∧ BusStored (m.load s).2 t (m.address s).1 (BitVec.ofNat 8 r) ∧
       t.p = { s.p with n := decide (128 ≤ r), z := decide (r = 0) }) ∧
      t.a = s.a ∧ t.pc = s.pc + BitVec.ofNat 16 i.length ∧ SameXYS s t ∧ SameSetting s t

/-- 45 R161, R162, R164, R165: DEX, DEY, INX, INY complete: the register one less or one more modulo 256, N and Z from it, PC by
one, nothing else. -/
def Obligations.CountIndexRegisters : Prop :=
  ∀ s : State,
    (let r := (s.x.toNat + 255) % 256
     encode .dex = [0xCA] ∧ exec .dex s = .next { s with
       x := BitVec.ofNat 8 r, p := { s.p with n := decide (128 ≤ r), z := decide (r = 0) }, pc := s.pc + 1 }) ∧
    (let r := (s.y.toNat + 255) % 256
     encode .dey = [0x88] ∧ exec .dey s = .next { s with
       y := BitVec.ofNat 8 r, p := { s.p with n := decide (128 ≤ r), z := decide (r = 0) }, pc := s.pc + 1 }) ∧
    (let r := (s.x.toNat + 1) % 256
     encode .inx = [0xE8] ∧ exec .inx s = .next { s with
       x := BitVec.ofNat 8 r, p := { s.p with n := decide (128 ≤ r), z := decide (r = 0) }, pc := s.pc + 1 }) ∧
    (let r := (s.y.toNat + 1) % 256
     encode .iny = [0xC8] ∧ exec .iny s = .next { s with
       y := BitVec.ofNat 8 r, p := { s.p with n := decide (128 ≤ r), z := decide (r = 0) }, pc := s.pc + 1 })

/-! ### Jumps and subroutines -/

/-- 46 R170, 30 R94: JMP completes in both modes and changes PC only (and, through a device, the bus). With the page wrap the
pointer's high byte comes from the same page; without it, from the next address. -/
def Obligations.JumpSetsPc : Prop :=
  ∀ (s : State) (w : Word),
    (encode (.jmpAbsolute w) = [0x4C, loByte w, hiByte w] ∧ exec (.jmpAbsolute w) s = .next { s with pc := w }) ∧
    (encode (.jmpIndirect w) = [0x6C, loByte w, hiByte w] ∧
      ∃ t, exec (.jmpIndirect w) s = .next t ∧
        (let r := if s.platform.jmpIndPageWrap then s.read16Page w else s.read16 w
         t.pc = r.1 ∧ SameBus r.2 t) ∧
        ((∀ b, s.memoryAt b) → t.pc = joinBytes
          (s.byteAt (if s.platform.jmpIndPageWrap = true ∧ w.toNat % 256 = 255
            then BitVec.ofNat 16 (w.toNat - 255) else w + 1)) (s.byteAt w)) ∧
        t.a = s.a ∧ t.p = s.p ∧ SameXYS s t ∧ SameMemory s t ∧ SameSetting s t)

/-- 46 R171: JSR completes: PC is the target, the address of its last byte is on the stack, high byte first, S down by two; no
flag, no other register, no other byte. -/
def Obligations.JsrPushesReturnAddress : Prop :=
  ∀ (s : State) (w : Word), encode (.jsr w) = [0x20, loByte w, hiByte w] ∧
    ∃ t, exec (.jsr w) s = .next t ∧ t.pc = w ∧ t.s = s.s - 2 ∧
      TwoPushed s t (hiByte (s.pc + 2)) (loByte (s.pc + 2)) ∧
      t.a = s.a ∧ t.x = s.x ∧ t.y = s.y ∧ t.p = s.p ∧ SameSetting s t ∧ SameBus (s.push16 (s.pc + 2)) t

/-- 46 R172: RTS completes: PC is one more than the address pulled, low byte first, S up by two; nothing else changes. -/
def Obligations.RtsReturns : Prop :=
  ∀ s : State, encode .rts = [0x60] ∧
    ∃ t, exec .rts s = .next t ∧ t.pc = s.pull16.1 + 1 ∧ t.s = s.s + 2 ∧
      (s.memoryAt (stackAddr (s.s + 1)) → s.memoryAt (stackAddr (s.s + 2)) →
        t.pc = joinBytes (s.byteAt (stackAddr (s.s + 2))) (s.byteAt (stackAddr (s.s + 1))) + 1) ∧
      t.a = s.a ∧ t.x = s.x ∧ t.y = s.y ∧ t.p = s.p ∧ SameMemory s t ∧ SameSetting s t ∧ SameBus s.pull16.2 t

/-- 46 R171, R172: RTS in a subroutine that JSR entered, with the two stacked bytes still there, comes back to the instruction
after the JSR with S as it was, for every S; the stack wraps inside page one. -/
def Obligations.JsrThenRts : Prop :=
  ∀ (s t u : State) (w : Word), s.ramAt (stackAddr s.s) → s.ramAt (stackAddr (s.s - 1)) →
    exec (.jsr w) s = .next t → u.s = t.s → u.platform = s.platform →
    u.byteAt (stackAddr s.s) = t.byteAt (stackAddr s.s) →
    u.byteAt (stackAddr (s.s - 1)) = t.byteAt (stackAddr (s.s - 1)) →
    ∃ r, exec .rts u = .next r ∧ r.pc = s.pc + 3 ∧ r.s = s.s

/-! ### Loads and stores -/

/-- 47 R180 to R182: LDA (eight modes), LDX and LDY (five each) complete: the register is M, N and Z from it; no other register,
flag or byte. -/
def Obligations.LoadsWriteOneRegister : Prop :=
  ∀ (i : Instr) (s : State), i.mnemonic ∈ [.lda, .ldx, .ldy] → ∃ (src : Source) (t : State), i.operand = src.operand ∧
    exec i s = .next t ∧
    (let m := (src.load s).1
     t.a = (if i.mnemonic = .lda then m else s.a) ∧ t.x = (if i.mnemonic = .ldx then m else s.x) ∧
     t.y = (if i.mnemonic = .ldy then m else s.y) ∧
     t.p = { s.p with n := decide (128 ≤ m.toNat), z := decide (m.toNat = 0) }) ∧
    (i.mnemonic = .lda → HasOpcode i [(0xA9, .immediate), (0xA5, .zeroPage), (0xB5, .zeroPageX), (0xAD, .absolute),
      (0xBD, .absoluteX), (0xB9, .absoluteY), (0xA1, .indirectX), (0xB1, .indirectY)]) ∧
    (i.mnemonic = .ldx → HasOpcode i [(0xA2, .immediate), (0xA6, .zeroPage), (0xB6, .zeroPageY), (0xAE, .absolute),
      (0xBE, .absoluteY)]) ∧
    (i.mnemonic = .ldy → HasOpcode i [(0xA0, .immediate), (0xA4, .zeroPage), (0xB4, .zeroPageX), (0xAC, .absolute),
      (0xBC, .absoluteX)]) ∧
    t.s = s.s ∧ t.pc = s.pc + BitVec.ofNat 16 i.length ∧ SameMemory s t ∧ SameSetting s t ∧ SameBus (src.load s).2 t

/-- 47 R183 to R185: STA (seven modes), STX and STY (three each) complete: the register's value at EA, by the memory map; no
other byte, no flag, no register but PC. -/
def Obligations.StoresWriteOneByte : Prop :=
  ∀ (i : Instr) (s : State) (v : Byte) (rows : List (Nat × AddrMode)),
    (i.mnemonic, v, rows) ∈
      [(.sta, s.a, [(0x85, .zeroPage), (0x95, .zeroPageX), (0x8D, .absolute), (0x9D, .absoluteX), (0x99, .absoluteY),
        (0x81, .indirectX), (0x91, .indirectY)]),
       (.stx, s.x, [(0x86, .zeroPage), (0x96, .zeroPageY), (0x8E, .absolute)]),
       (.sty, s.y, [(0x84, .zeroPage), (0x94, .zeroPageX), (0x8C, .absolute)])] →
    ∃ (m : MemMode) (t : State), i.operand = .memory m ∧ HasOpcode i rows ∧ exec i s = .next t ∧
      ByteStored s t (m.address s).1 v ∧ BusStored (m.address s).2 t (m.address s).1 v ∧
      t.a = s.a ∧ t.p = s.p ∧ t.pc = s.pc + BitVec.ofNat 16 i.length ∧ SameXYS s t ∧ SameSetting s t

/-! ### Stack and transfers -/

/-- 48 R190, R191: PHA and PHP complete: A, or the status byte with bits 5 and 4 set, at 0x0100 + S, S down by one; no flag, no
other register, no other byte. -/
def Obligations.PushesWriteOneByte : Prop :=
  ∀ (i : Instr) (s : State) (op v : Byte),
    (i, op, v) ∈ [(Instr.pha, 0x48, s.a), (.php, 0x08, BitVec.ofNat 8 (s.p.n.toNat * 128 + s.p.v.toNat * 64 + 32 + 16 +
      s.p.d.toNat * 8 + s.p.i.toNat * 4 + s.p.z.toNat * 2 + s.p.c.toNat))] →
    encode i = [op] ∧ ∃ t, exec i s = .next t ∧ t.s = s.s - 1 ∧ ByteStored s t (stackAddr s.s) v ∧
      BusStored s t (stackAddr s.s) v ∧ t.a = s.a ∧ t.x = s.x ∧ t.y = s.y ∧ t.p = s.p ∧ t.pc = s.pc + 1 ∧
      SameSetting s t

/-- 48 R192: PLA completes: S up by one, A the byte there, N and Z from it; no other flag, register or byte. -/
def Obligations.PlaPullsAccumulator : Prop :=
  ∀ s : State, encode .pla = [0x68] ∧ ∃ t, exec .pla s = .next t ∧ t.s = s.s + 1 ∧ t.a = s.pull.1 ∧
    (s.memoryAt (stackAddr (s.s + 1)) → t.a = s.byteAt (stackAddr (s.s + 1))) ∧
    t.p = { s.p with n := decide (128 ≤ t.a.toNat), z := decide (t.a.toNat = 0) } ∧
    t.x = s.x ∧ t.y = s.y ∧ t.pc = s.pc + 1 ∧ SameMemory s t ∧ SameSetting s t ∧ SameBus s.pull.2 t

/-- 48 R193: PLP completes: S up by one, the six flags from bits 7, 6, 3, 2, 1, 0 of the byte there; nothing else. -/
def Obligations.PlpPullsFlags : Prop :=
  ∀ s : State, encode .plp = [0x28] ∧ ∃ t, exec .plp s = .next t ∧ t.s = s.s + 1 ∧
    t.p = ⟨s.pull.1.getLsbD 7, s.pull.1.getLsbD 6, s.pull.1.getLsbD 3, s.pull.1.getLsbD 2, s.pull.1.getLsbD 1,
      s.pull.1.getLsbD 0⟩ ∧
    (s.memoryAt (stackAddr (s.s + 1)) → s.pull.1 = s.byteAt (stackAddr (s.s + 1))) ∧
    t.a = s.a ∧ t.x = s.x ∧ t.y = s.y ∧ t.pc = s.pc + 1 ∧ SameMemory s t ∧ SameSetting s t ∧ SameBus s.pull.2 t

/-- 48 R190 to R193 (laws LAW-02, LAW-03): PHP then PLP gives the flags and S back; PHA then PLA gives A and S back with N and Z
from A, the other flags kept. -/
def Obligations.PushThenPull : Prop :=
  ∀ s : State, s.ramAt (stackAddr s.s) →
    (∃ t u, exec .php s = .next t ∧ exec .plp t = .next u ∧ u.p = s.p ∧ u.s = s.s ∧
      u.a = s.a ∧ u.x = s.x ∧ u.y = s.y ∧ u.pc = s.pc + 2 ∧ ByteStored s u (stackAddr s.s) (packP true s.p)) ∧
    (∃ t u, exec .pha s = .next t ∧ exec .pla t = .next u ∧ u.a = s.a ∧ u.s = s.s ∧ u.x = s.x ∧ u.y = s.y ∧
      u.p = { s.p with n := s.a.getLsbD 7, z := decide (s.a = 0) } ∧ u.pc = s.pc + 2 ∧
      ByteStored s u (stackAddr s.s) s.a)

/-- 48 R194 to R199: the six transfers complete: TAX, TAY, TSX, TXA, TYA write their destination and N and Z from it, TXS writes
S and no flag; PC by one; nothing else. -/
def Obligations.Transfers : Prop :=
  ∀ s : State,
    let nz := fun v : Byte => { s.p with n := decide (128 ≤ v.toNat), z := decide (v.toNat = 0) }
    (encode .tax = [0xAA] ∧ exec .tax s = .next { s with x := s.a, p := nz s.a, pc := s.pc + 1 }) ∧
    (encode .tay = [0xA8] ∧ exec .tay s = .next { s with y := s.a, p := nz s.a, pc := s.pc + 1 }) ∧
    (encode .tsx = [0xBA] ∧ exec .tsx s = .next { s with x := s.s, p := nz s.s, pc := s.pc + 1 }) ∧
    (encode .txa = [0x8A] ∧ exec .txa s = .next { s with a := s.x, p := nz s.x, pc := s.pc + 1 }) ∧
    (encode .txs = [0x9A] ∧ exec .txs s = .next { s with s := s.x, pc := s.pc + 1 }) ∧
    (encode .tya = [0x98] ∧ exec .tya s = .next { s with a := s.y, p := nz s.y, pc := s.pc + 1 })

/-! ### System -/

/-- 49 R200, 60 R212: BRK completes, whatever I is: it takes the exception through the vector at 0xFFFE, the pushed return
address being pc + 2 and the pushed status having bits 5 and 4 set. -/
def Obligations.BrkTakesException : Prop :=
  ∀ s : State, encode .brk = [0x00] ∧
    ∃ t, exec .brk s = .next t ∧ InterruptTaken s t 0xFFFE true (s.pc + 2) ∧ t.nmiPending = s.nmiPending

/-- 49 R201, 60 R220: RTI completes: the six flags from the byte pulled first, PC the address pulled next, low byte first,
nothing added; S up by three; nothing else. -/
def Obligations.RtiReturns : Prop :=
  ∀ s : State, encode .rti = [0x40] ∧ ∃ t, exec .rti s = .next t ∧ t.s = s.s + 3 ∧
    t.p = unpackP s.pull.1 ∧ t.pc = s.pull.2.pull16.1 ∧
    (s.memoryAt (stackAddr (s.s + 1)) → s.memoryAt (stackAddr (s.s + 2)) → s.memoryAt (stackAddr (s.s + 3)) →
      t.p = unpackP (s.byteAt (stackAddr (s.s + 1))) ∧
      t.pc = joinBytes (s.byteAt (stackAddr (s.s + 3))) (s.byteAt (stackAddr (s.s + 2)))) ∧
    t.a = s.a ∧ t.x = s.x ∧ t.y = s.y ∧ SameMemory s t ∧ SameSetting s t ∧ SameBus s.pull.2.pull16.2 t

/-- 60 R220, R223 (laws LAW-16, LAW-17): RTI in a handler that BRK, IRQ or NMI entered, with the three stacked bytes still there,
restores PC to the return address, S, and all six flags, whatever bit 4 of the pushed status was. -/
def Obligations.InterruptThenRti : Prop :=
  ∀ (s u : State) (vector : Word) (b : Bool) (ret : Word),
    s.ramAt (stackAddr s.s) → s.ramAt (stackAddr (s.s - 1)) → s.ramAt (stackAddr (s.s - 2)) →
    u.s = (s.interrupt vector b ret).s → u.platform = s.platform →
    u.byteAt (stackAddr s.s) = (s.interrupt vector b ret).byteAt (stackAddr s.s) →
    u.byteAt (stackAddr (s.s - 1)) = (s.interrupt vector b ret).byteAt (stackAddr (s.s - 1)) →
    u.byteAt (stackAddr (s.s - 2)) = (s.interrupt vector b ret).byteAt (stackAddr (s.s - 2)) →
    ∃ t, exec .rti u = .next t ∧ t.pc = ret ∧ t.p = s.p ∧ t.s = s.s ∧ SameMemory u t

/-- 49 R202, 30 R101: NOP completes and changes PC only, by one. -/
def Obligations.NopAdvancesPc : Prop :=
  ∀ s : State, encode .nop = [0xEA] ∧ exec .nop s = .next { s with pc := s.pc + 1 }
end

