-- ==== Sys2Proof/Laws/Bits.lean ====
section
/-! SUPPORT. The laws of splitting and joining 16-bit values (20_memory.md R53), and of stack addresses (R58). -/

namespace Sys2Proof.Machine

open Sys2Proof

theorem joinBytes_toNat (hi lo : Byte) : (joinBytes hi lo).toNat = hi.toNat * 256 + lo.toNat := by
  simp only [joinBytes, BitVec.toNat_ofNat]
  omega

theorem loByte_toNat (w : Word) : (loByte w).toNat = w.toNat % 256 := by simp [loByte]

theorem hiByte_toNat (w : Word) : (hiByte w).toNat = w.toNat / 256 := by
  simp only [hiByte, BitVec.toNat_ofNat]
  omega

@[simp] theorem loByte_joinBytes (hi lo : Byte) : loByte (joinBytes hi lo) = lo := by
  apply BitVec.eq_of_toNat_eq
  rw [loByte_toNat, joinBytes_toNat]
  omega

@[simp] theorem hiByte_joinBytes (hi lo : Byte) : hiByte (joinBytes hi lo) = hi := by
  apply BitVec.eq_of_toNat_eq
  rw [hiByte_toNat, joinBytes_toNat]
  omega

@[simp] theorem joinBytes_hiByte_loByte (w : Word) : joinBytes (hiByte w) (loByte w) = w := by
  apply BitVec.eq_of_toNat_eq
  rw [joinBytes_toNat, hiByte_toNat, loByte_toNat]
  omega

/-- Different values of S are different stack addresses. -/
@[simp] theorem stackAddr_eq_iff (a b : Byte) : stackAddr a = stackAddr b ↔ a = b := by
  refine ⟨fun h => ?_, fun h => h ▸ rfl⟩
  simpa [stackAddr] using congrArg loByte h
/-- The next address inside the page (20_memory.md R54, Read16Page). -/
theorem pageSuccessor_toNat (w : Word) :
    ((w &&& 0xFF00) ||| ((w + 1) &&& 0x00FF)).toNat = w.toNat / 256 * 256 + (w.toNat + 1) % 256 := by
  have hhi : w &&& (0xFF00 : Word) = (w >>> 8) <<< 8 := by
    apply BitVec.eq_of_getLsbD_eq
    intro k hk
    simp only [BitVec.getLsbD_and, BitVec.getLsbD_shiftLeft, BitVec.getLsbD_ushiftRight]
    have : ∀ k < 16, (0xFF00 : Word).getLsbD k = decide (8 ≤ k) := by decide
    rw [this k hk]
    by_cases h8 : k < 8
    · simp [h8, show ¬ 8 ≤ k by omega]
    · simp [h8, hk, show 8 + (k - 8) = k by omega, show 8 ≤ k by omega]
  have hlo : ((w + 1) &&& 0x00FF).toNat = (w.toNat + 1) % 256 := by
    rw [BitVec.toNat_and]
    show (w + 1).toNat &&& (2 ^ 8 - 1) = _
    rw [Nat.and_two_pow_sub_one_eq_mod, BitVec.toNat_add]
    simp
  rw [BitVec.toNat_or, hlo, hhi, BitVec.toNat_shiftLeft, BitVec.toNat_ushiftRight, Nat.shiftRight_eq_div_pow,
    Nat.mod_eq_of_lt (by have := w.isLt; rw [Nat.shiftLeft_eq]; omega), ← Nat.shiftLeft_add_eq_or_of_lt (by omega),
    Nat.shiftLeft_eq]

/-- The stack is page one (20_memory.md R58). -/
theorem stackAddr_toNat (s : Byte) : (stackAddr s).toNat = 0x0100 + s.toNat := by
  rw [stackAddr, joinBytes_toNat]; rfl

/-! S after one and two pushes is another value of S (20_memory.md R58). -/

theorem byte_ne_sub_one (v : Byte) : v ≠ v - 1 := by bv_omega

theorem byte_ne_sub_two (v : Byte) : v ≠ v - 2 := by bv_omega

theorem byte_sub_one_ne_sub_two (v : Byte) : v - 1 ≠ v - 2 := by bv_omega

end Sys2Proof.Machine
end

