-- ==== Sys2Proof/Laws/EndOfRun.lean ====
section
/-! SUPPORT. Said once: what a bounded run, and the host's run of so many steps, do at their first state (00_scope.md R11). A proof about runs is an induction on the
bound that cites these. -/

namespace Sys2Proof.Machine

open Sys2Proof

/-- The host's run goes on from the next state. -/
theorem core_run_next {s t : State} (k : Nat) (h : step s = .next t) : core.run (k + 1) s = core.run k t := by
  have hc : core.step s = .next t := h
  simp only [Host.Core.run, hc]

/-- The host's run stops at a refused step. -/
theorem core_run_refused {s : State} {r : Refusal} (k : Nat) (h : step s = .refused r) :
    core.run (k + 1) s = .refused r := by
  have hc : core.step s = .refused r := h
  simp only [Host.Core.run, hc]

theorem runEnded_iff (stop : Word) (s : State) : s.runEnded stop = true ↔ s.pc = stop := by simp [State.runEnded]

/-- At the stated address the run is over, however many steps are left. -/
theorem runTo_at_stop {stop : Word} {s : State} (n : Nat) (h : s.pc = stop) : s.runTo stop n = .ended s := by
  cases n <;> simp [State.runTo, runEnded_iff, h]

/-- Away from it, with no steps left, the run is unfinished. -/
theorem runTo_zero {stop : Word} {s : State} (h : s.pc ≠ stop) : s.runTo stop 0 = .unfinished s := by
  simp [State.runTo, runEnded_iff, h]

/-- Away from it, the run goes on from the next state. -/
theorem runTo_next {stop : Word} {s t : State} (n : Nat) (h : s.pc ≠ stop) (hs : step s = .next t) :
    s.runTo stop (n + 1) = t.runTo stop n := by
  simp [State.runTo, runEnded_iff, h, hs]

/-- Away from it, a refused step refuses the run. -/
theorem runTo_refused {stop : Word} {s : State} {r : Refusal} (n : Nat) (h : s.pc ≠ stop) (hs : step s = .refused r) :
    s.runTo stop (n + 1) = .refused r := by
  simp [State.runTo, runEnded_iff, h, hs]

end Sys2Proof.Machine
end

