-- ==== Sys2Proof/Laws/Exec.lean ====
section
/-! SUPPORT. Said once: every instruction completes by one of 33 shared operations, but for ADC and SBC where
decimal mode is refused. A proof about all
instructions goes through these cases instead of the 151 constructors. -/

namespace Sys2Proof.Machine

open Sys2Proof

/-- `Meaning i s t`: the shared operation that takes `s` to `t` when `i` runs. -/
inductive Meaning (i : Instr) (s : State) : State → Prop where
  | adc (src : Source) (hm : i.mnemonic = .adc) (hl : i.length = src.length) : Meaning i s (adc src s)
  | sbc (src : Source) (hm : i.mnemonic = .sbc) (hl : i.length = src.length) : Meaning i s (sbc src s)
  | compare (reg : Byte) (src : Source) (hm : i.mnemonic ∈ [.cmp, .cpx, .cpy]) (hl : i.length = src.length) :
      Meaning i s (compareWith reg src s)
  | logic (op : Byte → Byte → Byte) (src : Source) (hm : i.mnemonic ∈ [.andA, .eor, .ora]) (hl : i.length = src.length) :
      Meaning i s (logic op src s)
  | bit (m : MemMode) (hm : i.mnemonic = .bit) (hl : i.length = m.length) : Meaning i s (bitTest m s)
  | asl (target : Target) (hm : i.mnemonic = .asl) (ho : i.operand = target.operand) : Meaning i s (shift aslByte target s)
  | lsr (target : Target) (hm : i.mnemonic = .lsr) (ho : i.operand = target.operand) : Meaning i s (shift lsrByte target s)
  | rol (target : Target) (hm : i.mnemonic = .rol) (ho : i.operand = target.operand) : Meaning i s (shift rolByte target s)
  | ror (target : Target) (hm : i.mnemonic = .ror) (ho : i.operand = target.operand) : Meaning i s (shift rorByte target s)
  | branch (cond : Bool) (disp : Byte) (hm : i.mnemonic ∈ [.bcc, .bcs, .beq, .bmi, .bne, .bpl, .bvc, .bvs]) :
      Meaning i s (branch cond disp s)
  | flag (p : Flags) (hl : i.length = 1)
      (hm : (i.mnemonic, p) ∈ [(.clc, { s.p with c := false }), (.cld, { s.p with d := false }),
        (.cli, { s.p with i := false }), (.clv, { s.p with v := false }), (.sec, { s.p with c := true }),
        (.sed, { s.p with d := true }), (.sei, { s.p with i := true })]) :
      Meaning i s (flagOp p s)
  | dec (m : MemMode) (hm : i.mnemonic = .dec) (ho : i.operand = .memory m) : Meaning i s (step1Memory decByte m s)
  | inc (m : MemMode) (hm : i.mnemonic = .inc) (ho : i.operand = .memory m) : Meaning i s (step1Memory incByte m s)
  | countX (v : Byte) (hm : i.mnemonic ∈ [.dex, .inx]) (hl : i.length = 1) : Meaning i s (countX v s)
  | countY (v : Byte) (hm : i.mnemonic ∈ [.dey, .iny]) (hl : i.length = 1) : Meaning i s (countY v s)
  | jump (w : Word) (hm : i.mnemonic = .jmp) : Meaning i s (s.setPc w)
  | jumpIndirect (ptr : Word) (hm : i.mnemonic = .jmp) : Meaning i s (jumpIndirect ptr s)
  | jsr (w : Word) (hm : i.mnemonic = .jsr) : Meaning i s (jumpSubroutine w s)
  | rts (hm : i.mnemonic = .rts) : Meaning i s (returnSubroutine s)
  | lda (src : Source) (hm : i.mnemonic = .lda) (hl : i.length = src.length) : Meaning i s (loadA src s)
  | ldx (src : Source) (hm : i.mnemonic = .ldx) (hl : i.length = src.length) : Meaning i s (loadX src s)
  | ldy (src : Source) (hm : i.mnemonic = .ldy) (hl : i.length = src.length) : Meaning i s (loadY src s)
  | store (v : Byte) (m : MemMode) (hm : i.mnemonic ∈ [.sta, .stx, .sty]) (hl : i.length = m.length) :
      Meaning i s (storeByte v m s)
  | push (v : Byte) (hm : i.mnemonic ∈ [.pha, .php]) (hl : i.length = 1) : Meaning i s (pushByte v s)
  | pla (hm : i.mnemonic = .pla) (hl : i.length = 1) : Meaning i s (pullA s)
  | plp (hm : i.mnemonic = .plp) (hl : i.length = 1) : Meaning i s (pullP s)
  | toA (v : Byte) (hm : i.mnemonic ∈ [.txa, .tya]) (hl : i.length = 1) : Meaning i s (transferToA v s)
  | toX (v : Byte) (hm : i.mnemonic ∈ [.tax, .tsx]) (hl : i.length = 1) : Meaning i s (transferToX v s)
  | toY (v : Byte) (hm : i.mnemonic = .tay) (hl : i.length = 1) : Meaning i s (transferToY v s)
  | txs (hm : i.mnemonic = .txs) (hl : i.length = 1) : Meaning i s ((s.setS s.x).advance 1)
  | brk (hm : i.mnemonic = .brk) : Meaning i s (s.interrupt vecIrq true (s.pc + 2))
  | rti (hm : i.mnemonic = .rti) : Meaning i s s.returnFromInterrupt
  | nop (hm : i.mnemonic = .nop) (hl : i.length = 1) : Meaning i s (s.advance 1)

/-- Decimal mode is refused exactly with D = 1 on a platform whose DECIMAL_MODE is `refuse`. -/
theorem refusesDecimal_iff (s : State) : s.refusesDecimal = true ↔ s.p.d = true ∧ s.platform.decimalMode = .refuse := by
  simp [State.refusesDecimal]

theorem refusesDecimal_eq_false {s : State} (h : s.p.d = false ∨ s.platform.decimalMode = .nmos) :
    s.refusesDecimal = false := by
  obtain h | h := h <;> simp [State.refusesDecimal, h]

/-- Where decimal mode is not refused, ADC and SBC leave the state their shared operation gives. -/
theorem unlessDecimalRefused_next {s : State} (t : State) (h : s.refusesDecimal = false) :
    unlessDecimalRefused s t = .next t := by
  simp [unlessDecimalRefused, h]

/-- Where it is refused, they are refused. -/
theorem unlessDecimalRefused_refused {s : State} (t : State) (h : s.refusesDecimal = true) :
    unlessDecimalRefused s t = .refused .decimalMode := by
  simp [unlessDecimalRefused, h]

/-- An ADC or SBC completes by its shared operation, unless the platform refuses decimal mode. -/
theorem exec_meaning_arith {i : Instr} {s t : State} (hm : i.mnemonic ∈ [.adc, .sbc])
    (h : exec i s = unlessDecimalRefused s t) (m : Meaning i s t) :
    (∃ t, exec i s = .next t ∧ Meaning i s t) ∨
      (i.mnemonic ∈ [.adc, .sbc] ∧ s.refusesDecimal = true ∧ exec i s = .refused .decimalMode) := by
  by_cases hd : s.refusesDecimal = true
  · exact .inr ⟨hm, hd, h.trans (unlessDecimalRefused_refused t hd)⟩
  · exact .inl ⟨t, h.trans (unlessDecimalRefused_next t (Bool.eq_false_iff.2 hd)), m⟩

/-- Every instruction completes, by one of the shared operations, but for ADC and SBC where the platform refuses decimal
mode and D is 1. -/
theorem exec_meaning (i : Instr) (s : State) :
    (∃ t, exec i s = .next t ∧ Meaning i s t) ∨
      (i.mnemonic ∈ [.adc, .sbc] ∧ s.refusesDecimal = true ∧ exec i s = .refused .decimalMode) := by
  cases i with
  | adcImmediate v => exact exec_meaning_arith (by simp [Instr.mnemonic]) rfl (.adc (.immediate v) rfl rfl)
  | adcZeroPage zp => exact exec_meaning_arith (by simp [Instr.mnemonic]) rfl (.adc (.memory (.zeroPage zp)) rfl rfl)
  | adcZeroPageX zp => exact exec_meaning_arith (by simp [Instr.mnemonic]) rfl (.adc (.memory (.zeroPageX zp)) rfl rfl)
  | adcAbsolute addr => exact exec_meaning_arith (by simp [Instr.mnemonic]) rfl (.adc (.memory (.absolute addr)) rfl rfl)
  | adcAbsoluteX addr => exact exec_meaning_arith (by simp [Instr.mnemonic]) rfl (.adc (.memory (.absoluteX addr)) rfl rfl)
  | adcAbsoluteY addr => exact exec_meaning_arith (by simp [Instr.mnemonic]) rfl (.adc (.memory (.absoluteY addr)) rfl rfl)
  | adcIndirectX zp => exact exec_meaning_arith (by simp [Instr.mnemonic]) rfl (.adc (.memory (.indirectX zp)) rfl rfl)
  | adcIndirectY zp => exact exec_meaning_arith (by simp [Instr.mnemonic]) rfl (.adc (.memory (.indirectY zp)) rfl rfl)
  | sbcImmediate v => exact exec_meaning_arith (by simp [Instr.mnemonic]) rfl (.sbc (.immediate v) rfl rfl)
  | sbcZeroPage zp => exact exec_meaning_arith (by simp [Instr.mnemonic]) rfl (.sbc (.memory (.zeroPage zp)) rfl rfl)
  | sbcZeroPageX zp => exact exec_meaning_arith (by simp [Instr.mnemonic]) rfl (.sbc (.memory (.zeroPageX zp)) rfl rfl)
  | sbcAbsolute addr => exact exec_meaning_arith (by simp [Instr.mnemonic]) rfl (.sbc (.memory (.absolute addr)) rfl rfl)
  | sbcAbsoluteX addr => exact exec_meaning_arith (by simp [Instr.mnemonic]) rfl (.sbc (.memory (.absoluteX addr)) rfl rfl)
  | sbcAbsoluteY addr => exact exec_meaning_arith (by simp [Instr.mnemonic]) rfl (.sbc (.memory (.absoluteY addr)) rfl rfl)
  | sbcIndirectX zp => exact exec_meaning_arith (by simp [Instr.mnemonic]) rfl (.sbc (.memory (.indirectX zp)) rfl rfl)
  | sbcIndirectY zp => exact exec_meaning_arith (by simp [Instr.mnemonic]) rfl (.sbc (.memory (.indirectY zp)) rfl rfl)
  | cmpImmediate v => exact .inl ⟨_, rfl, .compare _ (.immediate v) (by simp [Instr.mnemonic]) rfl⟩
  | cmpZeroPage zp => exact .inl ⟨_, rfl, .compare _ (.memory (.zeroPage zp)) (by simp [Instr.mnemonic]) rfl⟩
  | cmpZeroPageX zp => exact .inl ⟨_, rfl, .compare _ (.memory (.zeroPageX zp)) (by simp [Instr.mnemonic]) rfl⟩
  | cmpAbsolute addr => exact .inl ⟨_, rfl, .compare _ (.memory (.absolute addr)) (by simp [Instr.mnemonic]) rfl⟩
  | cmpAbsoluteX addr => exact .inl ⟨_, rfl, .compare _ (.memory (.absoluteX addr)) (by simp [Instr.mnemonic]) rfl⟩
  | cmpAbsoluteY addr => exact .inl ⟨_, rfl, .compare _ (.memory (.absoluteY addr)) (by simp [Instr.mnemonic]) rfl⟩
  | cmpIndirectX zp => exact .inl ⟨_, rfl, .compare _ (.memory (.indirectX zp)) (by simp [Instr.mnemonic]) rfl⟩
  | cmpIndirectY zp => exact .inl ⟨_, rfl, .compare _ (.memory (.indirectY zp)) (by simp [Instr.mnemonic]) rfl⟩
  | cpxImmediate v => exact .inl ⟨_, rfl, .compare _ (.immediate v) (by simp [Instr.mnemonic]) rfl⟩
  | cpxZeroPage zp => exact .inl ⟨_, rfl, .compare _ (.memory (.zeroPage zp)) (by simp [Instr.mnemonic]) rfl⟩
  | cpxAbsolute addr => exact .inl ⟨_, rfl, .compare _ (.memory (.absolute addr)) (by simp [Instr.mnemonic]) rfl⟩
  | cpyImmediate v => exact .inl ⟨_, rfl, .compare _ (.immediate v) (by simp [Instr.mnemonic]) rfl⟩
  | cpyZeroPage zp => exact .inl ⟨_, rfl, .compare _ (.memory (.zeroPage zp)) (by simp [Instr.mnemonic]) rfl⟩
  | cpyAbsolute addr => exact .inl ⟨_, rfl, .compare _ (.memory (.absolute addr)) (by simp [Instr.mnemonic]) rfl⟩
  | andImmediate v => exact .inl ⟨_, rfl, .logic _ (.immediate v) (by simp [Instr.mnemonic]) rfl⟩
  | andZeroPage zp => exact .inl ⟨_, rfl, .logic _ (.memory (.zeroPage zp)) (by simp [Instr.mnemonic]) rfl⟩
  | andZeroPageX zp => exact .inl ⟨_, rfl, .logic _ (.memory (.zeroPageX zp)) (by simp [Instr.mnemonic]) rfl⟩
  | andAbsolute addr => exact .inl ⟨_, rfl, .logic _ (.memory (.absolute addr)) (by simp [Instr.mnemonic]) rfl⟩
  | andAbsoluteX addr => exact .inl ⟨_, rfl, .logic _ (.memory (.absoluteX addr)) (by simp [Instr.mnemonic]) rfl⟩
  | andAbsoluteY addr => exact .inl ⟨_, rfl, .logic _ (.memory (.absoluteY addr)) (by simp [Instr.mnemonic]) rfl⟩
  | andIndirectX zp => exact .inl ⟨_, rfl, .logic _ (.memory (.indirectX zp)) (by simp [Instr.mnemonic]) rfl⟩
  | andIndirectY zp => exact .inl ⟨_, rfl, .logic _ (.memory (.indirectY zp)) (by simp [Instr.mnemonic]) rfl⟩
  | eorImmediate v => exact .inl ⟨_, rfl, .logic _ (.immediate v) (by simp [Instr.mnemonic]) rfl⟩
  | eorZeroPage zp => exact .inl ⟨_, rfl, .logic _ (.memory (.zeroPage zp)) (by simp [Instr.mnemonic]) rfl⟩
  | eorZeroPageX zp => exact .inl ⟨_, rfl, .logic _ (.memory (.zeroPageX zp)) (by simp [Instr.mnemonic]) rfl⟩
  | eorAbsolute addr => exact .inl ⟨_, rfl, .logic _ (.memory (.absolute addr)) (by simp [Instr.mnemonic]) rfl⟩
  | eorAbsoluteX addr => exact .inl ⟨_, rfl, .logic _ (.memory (.absoluteX addr)) (by simp [Instr.mnemonic]) rfl⟩
  | eorAbsoluteY addr => exact .inl ⟨_, rfl, .logic _ (.memory (.absoluteY addr)) (by simp [Instr.mnemonic]) rfl⟩
  | eorIndirectX zp => exact .inl ⟨_, rfl, .logic _ (.memory (.indirectX zp)) (by simp [Instr.mnemonic]) rfl⟩
  | eorIndirectY zp => exact .inl ⟨_, rfl, .logic _ (.memory (.indirectY zp)) (by simp [Instr.mnemonic]) rfl⟩
  | oraImmediate v => exact .inl ⟨_, rfl, .logic _ (.immediate v) (by simp [Instr.mnemonic]) rfl⟩
  | oraZeroPage zp => exact .inl ⟨_, rfl, .logic _ (.memory (.zeroPage zp)) (by simp [Instr.mnemonic]) rfl⟩
  | oraZeroPageX zp => exact .inl ⟨_, rfl, .logic _ (.memory (.zeroPageX zp)) (by simp [Instr.mnemonic]) rfl⟩
  | oraAbsolute addr => exact .inl ⟨_, rfl, .logic _ (.memory (.absolute addr)) (by simp [Instr.mnemonic]) rfl⟩
  | oraAbsoluteX addr => exact .inl ⟨_, rfl, .logic _ (.memory (.absoluteX addr)) (by simp [Instr.mnemonic]) rfl⟩
  | oraAbsoluteY addr => exact .inl ⟨_, rfl, .logic _ (.memory (.absoluteY addr)) (by simp [Instr.mnemonic]) rfl⟩
  | oraIndirectX zp => exact .inl ⟨_, rfl, .logic _ (.memory (.indirectX zp)) (by simp [Instr.mnemonic]) rfl⟩
  | oraIndirectY zp => exact .inl ⟨_, rfl, .logic _ (.memory (.indirectY zp)) (by simp [Instr.mnemonic]) rfl⟩
  | bitZeroPage zp => exact .inl ⟨_, rfl, .bit _ rfl rfl⟩
  | bitAbsolute addr => exact .inl ⟨_, rfl, .bit _ rfl rfl⟩
  | aslZeroPage zp => exact .inl ⟨_, rfl, .asl (.memory (.zeroPage zp)) rfl rfl⟩
  | aslZeroPageX zp => exact .inl ⟨_, rfl, .asl (.memory (.zeroPageX zp)) rfl rfl⟩
  | aslAbsolute addr => exact .inl ⟨_, rfl, .asl (.memory (.absolute addr)) rfl rfl⟩
  | aslAbsoluteX addr => exact .inl ⟨_, rfl, .asl (.memory (.absoluteX addr)) rfl rfl⟩
  | aslAccumulator => exact .inl ⟨_, rfl, .asl .accumulator rfl rfl⟩
  | lsrZeroPage zp => exact .inl ⟨_, rfl, .lsr (.memory (.zeroPage zp)) rfl rfl⟩
  | lsrZeroPageX zp => exact .inl ⟨_, rfl, .lsr (.memory (.zeroPageX zp)) rfl rfl⟩
  | lsrAbsolute addr => exact .inl ⟨_, rfl, .lsr (.memory (.absolute addr)) rfl rfl⟩
  | lsrAbsoluteX addr => exact .inl ⟨_, rfl, .lsr (.memory (.absoluteX addr)) rfl rfl⟩
  | lsrAccumulator => exact .inl ⟨_, rfl, .lsr .accumulator rfl rfl⟩
  | rolZeroPage zp => exact .inl ⟨_, rfl, .rol (.memory (.zeroPage zp)) rfl rfl⟩
  | rolZeroPageX zp => exact .inl ⟨_, rfl, .rol (.memory (.zeroPageX zp)) rfl rfl⟩
  | rolAbsolute addr => exact .inl ⟨_, rfl, .rol (.memory (.absolute addr)) rfl rfl⟩
  | rolAbsoluteX addr => exact .inl ⟨_, rfl, .rol (.memory (.absoluteX addr)) rfl rfl⟩
  | rolAccumulator => exact .inl ⟨_, rfl, .rol .accumulator rfl rfl⟩
  | rorZeroPage zp => exact .inl ⟨_, rfl, .ror (.memory (.zeroPage zp)) rfl rfl⟩
  | rorZeroPageX zp => exact .inl ⟨_, rfl, .ror (.memory (.zeroPageX zp)) rfl rfl⟩
  | rorAbsolute addr => exact .inl ⟨_, rfl, .ror (.memory (.absolute addr)) rfl rfl⟩
  | rorAbsoluteX addr => exact .inl ⟨_, rfl, .ror (.memory (.absoluteX addr)) rfl rfl⟩
  | rorAccumulator => exact .inl ⟨_, rfl, .ror .accumulator rfl rfl⟩
  | bcc disp => exact .inl ⟨_, rfl, .branch _ _ (by simp [Instr.mnemonic])⟩
  | bcs disp => exact .inl ⟨_, rfl, .branch _ _ (by simp [Instr.mnemonic])⟩
  | beq disp => exact .inl ⟨_, rfl, .branch _ _ (by simp [Instr.mnemonic])⟩
  | bmi disp => exact .inl ⟨_, rfl, .branch _ _ (by simp [Instr.mnemonic])⟩
  | bne disp => exact .inl ⟨_, rfl, .branch _ _ (by simp [Instr.mnemonic])⟩
  | bpl disp => exact .inl ⟨_, rfl, .branch _ _ (by simp [Instr.mnemonic])⟩
  | bvc disp => exact .inl ⟨_, rfl, .branch _ _ (by simp [Instr.mnemonic])⟩
  | bvs disp => exact .inl ⟨_, rfl, .branch _ _ (by simp [Instr.mnemonic])⟩
  | clc => exact .inl ⟨_, rfl, .flag _ rfl (by simp [Instr.mnemonic])⟩
  | cld => exact .inl ⟨_, rfl, .flag _ rfl (by simp [Instr.mnemonic])⟩
  | cli => exact .inl ⟨_, rfl, .flag _ rfl (by simp [Instr.mnemonic])⟩
  | clv => exact .inl ⟨_, rfl, .flag _ rfl (by simp [Instr.mnemonic])⟩
  | sec => exact .inl ⟨_, rfl, .flag _ rfl (by simp [Instr.mnemonic])⟩
  | sed => exact .inl ⟨_, rfl, .flag _ rfl (by simp [Instr.mnemonic])⟩
  | sei => exact .inl ⟨_, rfl, .flag _ rfl (by simp [Instr.mnemonic])⟩
  | decZeroPage zp => exact .inl ⟨_, rfl, .dec _ rfl rfl⟩
  | decZeroPageX zp => exact .inl ⟨_, rfl, .dec _ rfl rfl⟩
  | decAbsolute addr => exact .inl ⟨_, rfl, .dec _ rfl rfl⟩
  | decAbsoluteX addr => exact .inl ⟨_, rfl, .dec _ rfl rfl⟩
  | dex => exact .inl ⟨_, rfl, .countX _ (by simp [Instr.mnemonic]) rfl⟩
  | dey => exact .inl ⟨_, rfl, .countY _ (by simp [Instr.mnemonic]) rfl⟩
  | incZeroPage zp => exact .inl ⟨_, rfl, .inc _ rfl rfl⟩
  | incZeroPageX zp => exact .inl ⟨_, rfl, .inc _ rfl rfl⟩
  | incAbsolute addr => exact .inl ⟨_, rfl, .inc _ rfl rfl⟩
  | incAbsoluteX addr => exact .inl ⟨_, rfl, .inc _ rfl rfl⟩
  | inx => exact .inl ⟨_, rfl, .countX _ (by simp [Instr.mnemonic]) rfl⟩
  | iny => exact .inl ⟨_, rfl, .countY _ (by simp [Instr.mnemonic]) rfl⟩
  | jmpAbsolute addr => exact .inl ⟨_, rfl, .jump _ rfl⟩
  | jmpIndirect ptr => exact .inl ⟨_, rfl, .jumpIndirect _ rfl⟩
  | jsr addr => exact .inl ⟨_, rfl, .jsr _ rfl⟩
  | rts => exact .inl ⟨_, rfl, .rts rfl⟩
  | ldaImmediate v => exact .inl ⟨_, rfl, .lda (.immediate v) rfl rfl⟩
  | ldaZeroPage zp => exact .inl ⟨_, rfl, .lda (.memory (.zeroPage zp)) rfl rfl⟩
  | ldaZeroPageX zp => exact .inl ⟨_, rfl, .lda (.memory (.zeroPageX zp)) rfl rfl⟩
  | ldaAbsolute addr => exact .inl ⟨_, rfl, .lda (.memory (.absolute addr)) rfl rfl⟩
  | ldaAbsoluteX addr => exact .inl ⟨_, rfl, .lda (.memory (.absoluteX addr)) rfl rfl⟩
  | ldaAbsoluteY addr => exact .inl ⟨_, rfl, .lda (.memory (.absoluteY addr)) rfl rfl⟩
  | ldaIndirectX zp => exact .inl ⟨_, rfl, .lda (.memory (.indirectX zp)) rfl rfl⟩
  | ldaIndirectY zp => exact .inl ⟨_, rfl, .lda (.memory (.indirectY zp)) rfl rfl⟩
  | ldxImmediate v => exact .inl ⟨_, rfl, .ldx (.immediate v) rfl rfl⟩
  | ldxZeroPage zp => exact .inl ⟨_, rfl, .ldx (.memory (.zeroPage zp)) rfl rfl⟩
  | ldxZeroPageY zp => exact .inl ⟨_, rfl, .ldx (.memory (.zeroPageY zp)) rfl rfl⟩
  | ldxAbsolute addr => exact .inl ⟨_, rfl, .ldx (.memory (.absolute addr)) rfl rfl⟩
  | ldxAbsoluteY addr => exact .inl ⟨_, rfl, .ldx (.memory (.absoluteY addr)) rfl rfl⟩
  | ldyImmediate v => exact .inl ⟨_, rfl, .ldy (.immediate v) rfl rfl⟩
  | ldyZeroPage zp => exact .inl ⟨_, rfl, .ldy (.memory (.zeroPage zp)) rfl rfl⟩
  | ldyZeroPageX zp => exact .inl ⟨_, rfl, .ldy (.memory (.zeroPageX zp)) rfl rfl⟩
  | ldyAbsolute addr => exact .inl ⟨_, rfl, .ldy (.memory (.absolute addr)) rfl rfl⟩
  | ldyAbsoluteX addr => exact .inl ⟨_, rfl, .ldy (.memory (.absoluteX addr)) rfl rfl⟩
  | staZeroPage zp => exact .inl ⟨_, rfl, .store _ _ (by simp [Instr.mnemonic]) rfl⟩
  | staZeroPageX zp => exact .inl ⟨_, rfl, .store _ _ (by simp [Instr.mnemonic]) rfl⟩
  | staAbsolute addr => exact .inl ⟨_, rfl, .store _ _ (by simp [Instr.mnemonic]) rfl⟩
  | staAbsoluteX addr => exact .inl ⟨_, rfl, .store _ _ (by simp [Instr.mnemonic]) rfl⟩
  | staAbsoluteY addr => exact .inl ⟨_, rfl, .store _ _ (by simp [Instr.mnemonic]) rfl⟩
  | staIndirectX zp => exact .inl ⟨_, rfl, .store _ _ (by simp [Instr.mnemonic]) rfl⟩
  | staIndirectY zp => exact .inl ⟨_, rfl, .store _ _ (by simp [Instr.mnemonic]) rfl⟩
  | stxZeroPage zp => exact .inl ⟨_, rfl, .store _ _ (by simp [Instr.mnemonic]) rfl⟩
  | stxZeroPageY zp => exact .inl ⟨_, rfl, .store _ _ (by simp [Instr.mnemonic]) rfl⟩
  | stxAbsolute addr => exact .inl ⟨_, rfl, .store _ _ (by simp [Instr.mnemonic]) rfl⟩
  | styZeroPage zp => exact .inl ⟨_, rfl, .store _ _ (by simp [Instr.mnemonic]) rfl⟩
  | styZeroPageX zp => exact .inl ⟨_, rfl, .store _ _ (by simp [Instr.mnemonic]) rfl⟩
  | styAbsolute addr => exact .inl ⟨_, rfl, .store _ _ (by simp [Instr.mnemonic]) rfl⟩
  | pha => exact .inl ⟨_, rfl, .push _ (by simp [Instr.mnemonic]) rfl⟩
  | php => exact .inl ⟨_, rfl, .push _ (by simp [Instr.mnemonic]) rfl⟩
  | pla => exact .inl ⟨_, rfl, .pla rfl rfl⟩
  | plp => exact .inl ⟨_, rfl, .plp rfl rfl⟩
  | tax => exact .inl ⟨_, rfl, .toX _ (by simp [Instr.mnemonic]) rfl⟩
  | tay => exact .inl ⟨_, rfl, .toY _ rfl rfl⟩
  | tsx => exact .inl ⟨_, rfl, .toX _ (by simp [Instr.mnemonic]) rfl⟩
  | txa => exact .inl ⟨_, rfl, .toA _ (by simp [Instr.mnemonic]) rfl⟩
  | txs => exact .inl ⟨_, rfl, .txs rfl rfl⟩
  | tya => exact .inl ⟨_, rfl, .toA _ (by simp [Instr.mnemonic]) rfl⟩
  | brk => exact .inl ⟨_, rfl, .brk rfl⟩
  | rti => exact .inl ⟨_, rfl, .rti rfl⟩
  | nop => exact .inl ⟨_, rfl, .nop rfl rfl⟩

/-- A next state of an instruction is what one of the shared operations gives. -/
theorem meaning_of_exec {i : Instr} {s t : State} (h : exec i s = .next t) : Meaning i s t := by
  obtain ⟨u, hu, m⟩ | ⟨-, -, hr⟩ := exec_meaning i s
  · cases hu.symm.trans h
    exact m
  · cases hr.symm.trans h

/-- Where the platform does not refuse decimal mode, or D is 0, every instruction completes. -/
theorem exec_completes {i : Instr} {s : State} (h : s.refusesDecimal = false) : ∃ t, exec i s = .next t ∧ Meaning i s t := by
  obtain hn | ⟨-, hd, -⟩ := exec_meaning i s
  · exact hn
  · simp [h] at hd

end Sys2Proof.Machine
end

