-- ==== Sys2Proof/Laws/Forms.lean ====
section
/-! SUPPORT. One inversion lemma per mnemonic with several forms: whatever its form, the instruction's operand, its opcode, and
the shared operation its meaning is. A proof about a mnemonic cites its lemma instead of going through the 151 constructors. -/

namespace Sys2Proof.Machine

open Sys2Proof

/-- ADC: 8 forms. -/
theorem adc_forms {i : Instr} (s : State) (h : i.mnemonic = .adc) :
    ∃ src : Source, i.operand = src.operand ∧ i.length = src.length ∧ exec i s = unlessDecimalRefused s (adc src s) ∧
      HasOpcode i [(0x69, .immediate), (0x65, .zeroPage), (0x75, .zeroPageX), (0x6D, .absolute), (0x7D, .absoluteX),
        (0x79, .absoluteY), (0x61, .indirectX), (0x71, .indirectY)] := by
  cases i with
  | adcImmediate v => exact ⟨.immediate v, rfl, rfl, rfl, (0x69, .immediate), by decide, rfl, rfl⟩
  | adcZeroPage zp => exact ⟨.memory (.zeroPage zp), rfl, rfl, rfl, (0x65, .zeroPage), by decide, rfl, rfl⟩
  | adcZeroPageX zp => exact ⟨.memory (.zeroPageX zp), rfl, rfl, rfl, (0x75, .zeroPageX), by decide, rfl, rfl⟩
  | adcAbsolute addr => exact ⟨.memory (.absolute addr), rfl, rfl, rfl, (0x6D, .absolute), by decide, rfl, rfl⟩
  | adcAbsoluteX addr => exact ⟨.memory (.absoluteX addr), rfl, rfl, rfl, (0x7D, .absoluteX), by decide, rfl, rfl⟩
  | adcAbsoluteY addr => exact ⟨.memory (.absoluteY addr), rfl, rfl, rfl, (0x79, .absoluteY), by decide, rfl, rfl⟩
  | adcIndirectX zp => exact ⟨.memory (.indirectX zp), rfl, rfl, rfl, (0x61, .indirectX), by decide, rfl, rfl⟩
  | adcIndirectY zp => exact ⟨.memory (.indirectY zp), rfl, rfl, rfl, (0x71, .indirectY), by decide, rfl, rfl⟩
  | _ => nomatch h

/-- SBC: 8 forms. -/
theorem sbc_forms {i : Instr} (s : State) (h : i.mnemonic = .sbc) :
    ∃ src : Source, i.operand = src.operand ∧ i.length = src.length ∧ exec i s = unlessDecimalRefused s (sbc src s) ∧
      HasOpcode i [(0xE9, .immediate), (0xE5, .zeroPage), (0xF5, .zeroPageX), (0xED, .absolute), (0xFD, .absoluteX),
        (0xF9, .absoluteY), (0xE1, .indirectX), (0xF1, .indirectY)] := by
  cases i with
  | sbcImmediate v => exact ⟨.immediate v, rfl, rfl, rfl, (0xE9, .immediate), by decide, rfl, rfl⟩
  | sbcZeroPage zp => exact ⟨.memory (.zeroPage zp), rfl, rfl, rfl, (0xE5, .zeroPage), by decide, rfl, rfl⟩
  | sbcZeroPageX zp => exact ⟨.memory (.zeroPageX zp), rfl, rfl, rfl, (0xF5, .zeroPageX), by decide, rfl, rfl⟩
  | sbcAbsolute addr => exact ⟨.memory (.absolute addr), rfl, rfl, rfl, (0xED, .absolute), by decide, rfl, rfl⟩
  | sbcAbsoluteX addr => exact ⟨.memory (.absoluteX addr), rfl, rfl, rfl, (0xFD, .absoluteX), by decide, rfl, rfl⟩
  | sbcAbsoluteY addr => exact ⟨.memory (.absoluteY addr), rfl, rfl, rfl, (0xF9, .absoluteY), by decide, rfl, rfl⟩
  | sbcIndirectX zp => exact ⟨.memory (.indirectX zp), rfl, rfl, rfl, (0xE1, .indirectX), by decide, rfl, rfl⟩
  | sbcIndirectY zp => exact ⟨.memory (.indirectY zp), rfl, rfl, rfl, (0xF1, .indirectY), by decide, rfl, rfl⟩
  | _ => nomatch h

/-- CMP: 8 forms. -/
theorem cmp_forms {i : Instr} (s : State) (h : i.mnemonic = .cmp) :
    ∃ src : Source, i.operand = src.operand ∧ i.length = src.length ∧ exec i s = .next (compareWith s.a src s) ∧
      HasOpcode i [(0xC9, .immediate), (0xC5, .zeroPage), (0xD5, .zeroPageX), (0xCD, .absolute), (0xDD, .absoluteX),
        (0xD9, .absoluteY), (0xC1, .indirectX), (0xD1, .indirectY)] := by
  cases i with
  | cmpImmediate v => exact ⟨.immediate v, rfl, rfl, rfl, (0xC9, .immediate), by decide, rfl, rfl⟩
  | cmpZeroPage zp => exact ⟨.memory (.zeroPage zp), rfl, rfl, rfl, (0xC5, .zeroPage), by decide, rfl, rfl⟩
  | cmpZeroPageX zp => exact ⟨.memory (.zeroPageX zp), rfl, rfl, rfl, (0xD5, .zeroPageX), by decide, rfl, rfl⟩
  | cmpAbsolute addr => exact ⟨.memory (.absolute addr), rfl, rfl, rfl, (0xCD, .absolute), by decide, rfl, rfl⟩
  | cmpAbsoluteX addr => exact ⟨.memory (.absoluteX addr), rfl, rfl, rfl, (0xDD, .absoluteX), by decide, rfl, rfl⟩
  | cmpAbsoluteY addr => exact ⟨.memory (.absoluteY addr), rfl, rfl, rfl, (0xD9, .absoluteY), by decide, rfl, rfl⟩
  | cmpIndirectX zp => exact ⟨.memory (.indirectX zp), rfl, rfl, rfl, (0xC1, .indirectX), by decide, rfl, rfl⟩
  | cmpIndirectY zp => exact ⟨.memory (.indirectY zp), rfl, rfl, rfl, (0xD1, .indirectY), by decide, rfl, rfl⟩
  | _ => nomatch h

/-- CPX: 3 forms. -/
theorem cpx_forms {i : Instr} (s : State) (h : i.mnemonic = .cpx) :
    ∃ src : Source, i.operand = src.operand ∧ i.length = src.length ∧ exec i s = .next (compareWith s.x src s) ∧
      HasOpcode i [(0xE0, .immediate), (0xE4, .zeroPage), (0xEC, .absolute)] := by
  cases i with
  | cpxImmediate v => exact ⟨.immediate v, rfl, rfl, rfl, (0xE0, .immediate), by decide, rfl, rfl⟩
  | cpxZeroPage zp => exact ⟨.memory (.zeroPage zp), rfl, rfl, rfl, (0xE4, .zeroPage), by decide, rfl, rfl⟩
  | cpxAbsolute addr => exact ⟨.memory (.absolute addr), rfl, rfl, rfl, (0xEC, .absolute), by decide, rfl, rfl⟩
  | _ => nomatch h

/-- CPY: 3 forms. -/
theorem cpy_forms {i : Instr} (s : State) (h : i.mnemonic = .cpy) :
    ∃ src : Source, i.operand = src.operand ∧ i.length = src.length ∧ exec i s = .next (compareWith s.y src s) ∧
      HasOpcode i [(0xC0, .immediate), (0xC4, .zeroPage), (0xCC, .absolute)] := by
  cases i with
  | cpyImmediate v => exact ⟨.immediate v, rfl, rfl, rfl, (0xC0, .immediate), by decide, rfl, rfl⟩
  | cpyZeroPage zp => exact ⟨.memory (.zeroPage zp), rfl, rfl, rfl, (0xC4, .zeroPage), by decide, rfl, rfl⟩
  | cpyAbsolute addr => exact ⟨.memory (.absolute addr), rfl, rfl, rfl, (0xCC, .absolute), by decide, rfl, rfl⟩
  | _ => nomatch h

/-- AND: 8 forms. -/
theorem and_forms {i : Instr} (s : State) (h : i.mnemonic = .andA) :
    ∃ src : Source, i.operand = src.operand ∧ i.length = src.length ∧ exec i s = .next (logic (· &&& ·) src s) ∧
      HasOpcode i [(0x29, .immediate), (0x25, .zeroPage), (0x35, .zeroPageX), (0x2D, .absolute), (0x3D, .absoluteX),
        (0x39, .absoluteY), (0x21, .indirectX), (0x31, .indirectY)] := by
  cases i with
  | andImmediate v => exact ⟨.immediate v, rfl, rfl, rfl, (0x29, .immediate), by decide, rfl, rfl⟩
  | andZeroPage zp => exact ⟨.memory (.zeroPage zp), rfl, rfl, rfl, (0x25, .zeroPage), by decide, rfl, rfl⟩
  | andZeroPageX zp => exact ⟨.memory (.zeroPageX zp), rfl, rfl, rfl, (0x35, .zeroPageX), by decide, rfl, rfl⟩
  | andAbsolute addr => exact ⟨.memory (.absolute addr), rfl, rfl, rfl, (0x2D, .absolute), by decide, rfl, rfl⟩
  | andAbsoluteX addr => exact ⟨.memory (.absoluteX addr), rfl, rfl, rfl, (0x3D, .absoluteX), by decide, rfl, rfl⟩
  | andAbsoluteY addr => exact ⟨.memory (.absoluteY addr), rfl, rfl, rfl, (0x39, .absoluteY), by decide, rfl, rfl⟩
  | andIndirectX zp => exact ⟨.memory (.indirectX zp), rfl, rfl, rfl, (0x21, .indirectX), by decide, rfl, rfl⟩
  | andIndirectY zp => exact ⟨.memory (.indirectY zp), rfl, rfl, rfl, (0x31, .indirectY), by decide, rfl, rfl⟩
  | _ => nomatch h

/-- EOR: 8 forms. -/
theorem eor_forms {i : Instr} (s : State) (h : i.mnemonic = .eor) :
    ∃ src : Source, i.operand = src.operand ∧ i.length = src.length ∧ exec i s = .next (logic (· ^^^ ·) src s) ∧
      HasOpcode i [(0x49, .immediate), (0x45, .zeroPage), (0x55, .zeroPageX), (0x4D, .absolute), (0x5D, .absoluteX),
        (0x59, .absoluteY), (0x41, .indirectX), (0x51, .indirectY)] := by
  cases i with
  | eorImmediate v => exact ⟨.immediate v, rfl, rfl, rfl, (0x49, .immediate), by decide, rfl, rfl⟩
  | eorZeroPage zp => exact ⟨.memory (.zeroPage zp), rfl, rfl, rfl, (0x45, .zeroPage), by decide, rfl, rfl⟩
  | eorZeroPageX zp => exact ⟨.memory (.zeroPageX zp), rfl, rfl, rfl, (0x55, .zeroPageX), by decide, rfl, rfl⟩
  | eorAbsolute addr => exact ⟨.memory (.absolute addr), rfl, rfl, rfl, (0x4D, .absolute), by decide, rfl, rfl⟩
  | eorAbsoluteX addr => exact ⟨.memory (.absoluteX addr), rfl, rfl, rfl, (0x5D, .absoluteX), by decide, rfl, rfl⟩
  | eorAbsoluteY addr => exact ⟨.memory (.absoluteY addr), rfl, rfl, rfl, (0x59, .absoluteY), by decide, rfl, rfl⟩
  | eorIndirectX zp => exact ⟨.memory (.indirectX zp), rfl, rfl, rfl, (0x41, .indirectX), by decide, rfl, rfl⟩
  | eorIndirectY zp => exact ⟨.memory (.indirectY zp), rfl, rfl, rfl, (0x51, .indirectY), by decide, rfl, rfl⟩
  | _ => nomatch h

/-- ORA: 8 forms. -/
theorem ora_forms {i : Instr} (s : State) (h : i.mnemonic = .ora) :
    ∃ src : Source, i.operand = src.operand ∧ i.length = src.length ∧ exec i s = .next (logic (· ||| ·) src s) ∧
      HasOpcode i [(0x09, .immediate), (0x05, .zeroPage), (0x15, .zeroPageX), (0x0D, .absolute), (0x1D, .absoluteX),
        (0x19, .absoluteY), (0x01, .indirectX), (0x11, .indirectY)] := by
  cases i with
  | oraImmediate v => exact ⟨.immediate v, rfl, rfl, rfl, (0x09, .immediate), by decide, rfl, rfl⟩
  | oraZeroPage zp => exact ⟨.memory (.zeroPage zp), rfl, rfl, rfl, (0x05, .zeroPage), by decide, rfl, rfl⟩
  | oraZeroPageX zp => exact ⟨.memory (.zeroPageX zp), rfl, rfl, rfl, (0x15, .zeroPageX), by decide, rfl, rfl⟩
  | oraAbsolute addr => exact ⟨.memory (.absolute addr), rfl, rfl, rfl, (0x0D, .absolute), by decide, rfl, rfl⟩
  | oraAbsoluteX addr => exact ⟨.memory (.absoluteX addr), rfl, rfl, rfl, (0x1D, .absoluteX), by decide, rfl, rfl⟩
  | oraAbsoluteY addr => exact ⟨.memory (.absoluteY addr), rfl, rfl, rfl, (0x19, .absoluteY), by decide, rfl, rfl⟩
  | oraIndirectX zp => exact ⟨.memory (.indirectX zp), rfl, rfl, rfl, (0x01, .indirectX), by decide, rfl, rfl⟩
  | oraIndirectY zp => exact ⟨.memory (.indirectY zp), rfl, rfl, rfl, (0x11, .indirectY), by decide, rfl, rfl⟩
  | _ => nomatch h

/-- BIT: 2 forms. -/
theorem bit_forms {i : Instr} (s : State) (h : i.mnemonic = .bit) :
    ∃ src : MemMode, i.operand = .memory src ∧ i.length = src.length ∧ exec i s = .next (bitTest src s) ∧
      HasOpcode i [(0x24, .zeroPage), (0x2C, .absolute)] := by
  cases i with
  | bitZeroPage zp => exact ⟨.zeroPage zp, rfl, rfl, rfl, (0x24, .zeroPage), by decide, rfl, rfl⟩
  | bitAbsolute addr => exact ⟨.absolute addr, rfl, rfl, rfl, (0x2C, .absolute), by decide, rfl, rfl⟩
  | _ => nomatch h

/-- ASL: 5 forms. -/
theorem asl_forms {i : Instr} (s : State) (h : i.mnemonic = .asl) :
    ∃ src : Target, i.operand = src.operand ∧ i.length = src.length ∧ exec i s = .next (shift aslByte src s) ∧
      HasOpcode i [(0x06, .zeroPage), (0x16, .zeroPageX), (0x0E, .absolute), (0x1E, .absoluteX), (0x0A, .accumulator)] := by
  cases i with
  | aslZeroPage zp => exact ⟨.memory (.zeroPage zp), rfl, rfl, rfl, (0x06, .zeroPage), by decide, rfl, rfl⟩
  | aslZeroPageX zp => exact ⟨.memory (.zeroPageX zp), rfl, rfl, rfl, (0x16, .zeroPageX), by decide, rfl, rfl⟩
  | aslAbsolute addr => exact ⟨.memory (.absolute addr), rfl, rfl, rfl, (0x0E, .absolute), by decide, rfl, rfl⟩
  | aslAbsoluteX addr => exact ⟨.memory (.absoluteX addr), rfl, rfl, rfl, (0x1E, .absoluteX), by decide, rfl, rfl⟩
  | aslAccumulator => exact ⟨.accumulator, rfl, rfl, rfl, (0x0A, .accumulator), by decide, rfl, rfl⟩
  | _ => nomatch h

/-- LSR: 5 forms. -/
theorem lsr_forms {i : Instr} (s : State) (h : i.mnemonic = .lsr) :
    ∃ src : Target, i.operand = src.operand ∧ i.length = src.length ∧ exec i s = .next (shift lsrByte src s) ∧
      HasOpcode i [(0x46, .zeroPage), (0x56, .zeroPageX), (0x4E, .absolute), (0x5E, .absoluteX), (0x4A, .accumulator)] := by
  cases i with
  | lsrZeroPage zp => exact ⟨.memory (.zeroPage zp), rfl, rfl, rfl, (0x46, .zeroPage), by decide, rfl, rfl⟩
  | lsrZeroPageX zp => exact ⟨.memory (.zeroPageX zp), rfl, rfl, rfl, (0x56, .zeroPageX), by decide, rfl, rfl⟩
  | lsrAbsolute addr => exact ⟨.memory (.absolute addr), rfl, rfl, rfl, (0x4E, .absolute), by decide, rfl, rfl⟩
  | lsrAbsoluteX addr => exact ⟨.memory (.absoluteX addr), rfl, rfl, rfl, (0x5E, .absoluteX), by decide, rfl, rfl⟩
  | lsrAccumulator => exact ⟨.accumulator, rfl, rfl, rfl, (0x4A, .accumulator), by decide, rfl, rfl⟩
  | _ => nomatch h

/-- ROL: 5 forms. -/
theorem rol_forms {i : Instr} (s : State) (h : i.mnemonic = .rol) :
    ∃ src : Target, i.operand = src.operand ∧ i.length = src.length ∧ exec i s = .next (shift rolByte src s) ∧
      HasOpcode i [(0x26, .zeroPage), (0x36, .zeroPageX), (0x2E, .absolute), (0x3E, .absoluteX), (0x2A, .accumulator)] := by
  cases i with
  | rolZeroPage zp => exact ⟨.memory (.zeroPage zp), rfl, rfl, rfl, (0x26, .zeroPage), by decide, rfl, rfl⟩
  | rolZeroPageX zp => exact ⟨.memory (.zeroPageX zp), rfl, rfl, rfl, (0x36, .zeroPageX), by decide, rfl, rfl⟩
  | rolAbsolute addr => exact ⟨.memory (.absolute addr), rfl, rfl, rfl, (0x2E, .absolute), by decide, rfl, rfl⟩
  | rolAbsoluteX addr => exact ⟨.memory (.absoluteX addr), rfl, rfl, rfl, (0x3E, .absoluteX), by decide, rfl, rfl⟩
  | rolAccumulator => exact ⟨.accumulator, rfl, rfl, rfl, (0x2A, .accumulator), by decide, rfl, rfl⟩
  | _ => nomatch h

/-- ROR: 5 forms. -/
theorem ror_forms {i : Instr} (s : State) (h : i.mnemonic = .ror) :
    ∃ src : Target, i.operand = src.operand ∧ i.length = src.length ∧ exec i s = .next (shift rorByte src s) ∧
      HasOpcode i [(0x66, .zeroPage), (0x76, .zeroPageX), (0x6E, .absolute), (0x7E, .absoluteX), (0x6A, .accumulator)] := by
  cases i with
  | rorZeroPage zp => exact ⟨.memory (.zeroPage zp), rfl, rfl, rfl, (0x66, .zeroPage), by decide, rfl, rfl⟩
  | rorZeroPageX zp => exact ⟨.memory (.zeroPageX zp), rfl, rfl, rfl, (0x76, .zeroPageX), by decide, rfl, rfl⟩
  | rorAbsolute addr => exact ⟨.memory (.absolute addr), rfl, rfl, rfl, (0x6E, .absolute), by decide, rfl, rfl⟩
  | rorAbsoluteX addr => exact ⟨.memory (.absoluteX addr), rfl, rfl, rfl, (0x7E, .absoluteX), by decide, rfl, rfl⟩
  | rorAccumulator => exact ⟨.accumulator, rfl, rfl, rfl, (0x6A, .accumulator), by decide, rfl, rfl⟩
  | _ => nomatch h

/-- DEC: 4 forms. -/
theorem dec_forms {i : Instr} (s : State) (h : i.mnemonic = .dec) :
    ∃ src : MemMode, i.operand = .memory src ∧ i.length = src.length ∧ exec i s = .next (step1Memory decByte src s) ∧
      HasOpcode i [(0xC6, .zeroPage), (0xD6, .zeroPageX), (0xCE, .absolute), (0xDE, .absoluteX)] := by
  cases i with
  | decZeroPage zp => exact ⟨.zeroPage zp, rfl, rfl, rfl, (0xC6, .zeroPage), by decide, rfl, rfl⟩
  | decZeroPageX zp => exact ⟨.zeroPageX zp, rfl, rfl, rfl, (0xD6, .zeroPageX), by decide, rfl, rfl⟩
  | decAbsolute addr => exact ⟨.absolute addr, rfl, rfl, rfl, (0xCE, .absolute), by decide, rfl, rfl⟩
  | decAbsoluteX addr => exact ⟨.absoluteX addr, rfl, rfl, rfl, (0xDE, .absoluteX), by decide, rfl, rfl⟩
  | _ => nomatch h

/-- INC: 4 forms. -/
theorem inc_forms {i : Instr} (s : State) (h : i.mnemonic = .inc) :
    ∃ src : MemMode, i.operand = .memory src ∧ i.length = src.length ∧ exec i s = .next (step1Memory incByte src s) ∧
      HasOpcode i [(0xE6, .zeroPage), (0xF6, .zeroPageX), (0xEE, .absolute), (0xFE, .absoluteX)] := by
  cases i with
  | incZeroPage zp => exact ⟨.zeroPage zp, rfl, rfl, rfl, (0xE6, .zeroPage), by decide, rfl, rfl⟩
  | incZeroPageX zp => exact ⟨.zeroPageX zp, rfl, rfl, rfl, (0xF6, .zeroPageX), by decide, rfl, rfl⟩
  | incAbsolute addr => exact ⟨.absolute addr, rfl, rfl, rfl, (0xEE, .absolute), by decide, rfl, rfl⟩
  | incAbsoluteX addr => exact ⟨.absoluteX addr, rfl, rfl, rfl, (0xFE, .absoluteX), by decide, rfl, rfl⟩
  | _ => nomatch h

/-- LDA: 8 forms. -/
theorem lda_forms {i : Instr} (s : State) (h : i.mnemonic = .lda) :
    ∃ src : Source, i.operand = src.operand ∧ i.length = src.length ∧ exec i s = .next (loadA src s) ∧
      HasOpcode i [(0xA9, .immediate), (0xA5, .zeroPage), (0xB5, .zeroPageX), (0xAD, .absolute), (0xBD, .absoluteX),
        (0xB9, .absoluteY), (0xA1, .indirectX), (0xB1, .indirectY)] := by
  cases i with
  | ldaImmediate v => exact ⟨.immediate v, rfl, rfl, rfl, (0xA9, .immediate), by decide, rfl, rfl⟩
  | ldaZeroPage zp => exact ⟨.memory (.zeroPage zp), rfl, rfl, rfl, (0xA5, .zeroPage), by decide, rfl, rfl⟩
  | ldaZeroPageX zp => exact ⟨.memory (.zeroPageX zp), rfl, rfl, rfl, (0xB5, .zeroPageX), by decide, rfl, rfl⟩
  | ldaAbsolute addr => exact ⟨.memory (.absolute addr), rfl, rfl, rfl, (0xAD, .absolute), by decide, rfl, rfl⟩
  | ldaAbsoluteX addr => exact ⟨.memory (.absoluteX addr), rfl, rfl, rfl, (0xBD, .absoluteX), by decide, rfl, rfl⟩
  | ldaAbsoluteY addr => exact ⟨.memory (.absoluteY addr), rfl, rfl, rfl, (0xB9, .absoluteY), by decide, rfl, rfl⟩
  | ldaIndirectX zp => exact ⟨.memory (.indirectX zp), rfl, rfl, rfl, (0xA1, .indirectX), by decide, rfl, rfl⟩
  | ldaIndirectY zp => exact ⟨.memory (.indirectY zp), rfl, rfl, rfl, (0xB1, .indirectY), by decide, rfl, rfl⟩
  | _ => nomatch h

/-- LDX: 5 forms. -/
theorem ldx_forms {i : Instr} (s : State) (h : i.mnemonic = .ldx) :
    ∃ src : Source, i.operand = src.operand ∧ i.length = src.length ∧ exec i s = .next (loadX src s) ∧
      HasOpcode i [(0xA2, .immediate), (0xA6, .zeroPage), (0xB6, .zeroPageY), (0xAE, .absolute), (0xBE, .absoluteY)] := by
  cases i with
  | ldxImmediate v => exact ⟨.immediate v, rfl, rfl, rfl, (0xA2, .immediate), by decide, rfl, rfl⟩
  | ldxZeroPage zp => exact ⟨.memory (.zeroPage zp), rfl, rfl, rfl, (0xA6, .zeroPage), by decide, rfl, rfl⟩
  | ldxZeroPageY zp => exact ⟨.memory (.zeroPageY zp), rfl, rfl, rfl, (0xB6, .zeroPageY), by decide, rfl, rfl⟩
  | ldxAbsolute addr => exact ⟨.memory (.absolute addr), rfl, rfl, rfl, (0xAE, .absolute), by decide, rfl, rfl⟩
  | ldxAbsoluteY addr => exact ⟨.memory (.absoluteY addr), rfl, rfl, rfl, (0xBE, .absoluteY), by decide, rfl, rfl⟩
  | _ => nomatch h

/-- LDY: 5 forms. -/
theorem ldy_forms {i : Instr} (s : State) (h : i.mnemonic = .ldy) :
    ∃ src : Source, i.operand = src.operand ∧ i.length = src.length ∧ exec i s = .next (loadY src s) ∧
      HasOpcode i [(0xA0, .immediate), (0xA4, .zeroPage), (0xB4, .zeroPageX), (0xAC, .absolute), (0xBC, .absoluteX)] := by
  cases i with
  | ldyImmediate v => exact ⟨.immediate v, rfl, rfl, rfl, (0xA0, .immediate), by decide, rfl, rfl⟩
  | ldyZeroPage zp => exact ⟨.memory (.zeroPage zp), rfl, rfl, rfl, (0xA4, .zeroPage), by decide, rfl, rfl⟩
  | ldyZeroPageX zp => exact ⟨.memory (.zeroPageX zp), rfl, rfl, rfl, (0xB4, .zeroPageX), by decide, rfl, rfl⟩
  | ldyAbsolute addr => exact ⟨.memory (.absolute addr), rfl, rfl, rfl, (0xAC, .absolute), by decide, rfl, rfl⟩
  | ldyAbsoluteX addr => exact ⟨.memory (.absoluteX addr), rfl, rfl, rfl, (0xBC, .absoluteX), by decide, rfl, rfl⟩
  | _ => nomatch h

/-- STA: 7 forms. -/
theorem sta_forms {i : Instr} (s : State) (h : i.mnemonic = .sta) :
    ∃ src : MemMode, i.operand = .memory src ∧ i.length = src.length ∧ exec i s = .next (storeByte s.a src s) ∧
      HasOpcode i [(0x85, .zeroPage), (0x95, .zeroPageX), (0x8D, .absolute), (0x9D, .absoluteX), (0x99, .absoluteY),
        (0x81, .indirectX), (0x91, .indirectY)] := by
  cases i with
  | staZeroPage zp => exact ⟨.zeroPage zp, rfl, rfl, rfl, (0x85, .zeroPage), by decide, rfl, rfl⟩
  | staZeroPageX zp => exact ⟨.zeroPageX zp, rfl, rfl, rfl, (0x95, .zeroPageX), by decide, rfl, rfl⟩
  | staAbsolute addr => exact ⟨.absolute addr, rfl, rfl, rfl, (0x8D, .absolute), by decide, rfl, rfl⟩
  | staAbsoluteX addr => exact ⟨.absoluteX addr, rfl, rfl, rfl, (0x9D, .absoluteX), by decide, rfl, rfl⟩
  | staAbsoluteY addr => exact ⟨.absoluteY addr, rfl, rfl, rfl, (0x99, .absoluteY), by decide, rfl, rfl⟩
  | staIndirectX zp => exact ⟨.indirectX zp, rfl, rfl, rfl, (0x81, .indirectX), by decide, rfl, rfl⟩
  | staIndirectY zp => exact ⟨.indirectY zp, rfl, rfl, rfl, (0x91, .indirectY), by decide, rfl, rfl⟩
  | _ => nomatch h

/-- STX: 3 forms. -/
theorem stx_forms {i : Instr} (s : State) (h : i.mnemonic = .stx) :
    ∃ src : MemMode, i.operand = .memory src ∧ i.length = src.length ∧ exec i s = .next (storeByte s.x src s) ∧
      HasOpcode i [(0x86, .zeroPage), (0x96, .zeroPageY), (0x8E, .absolute)] := by
  cases i with
  | stxZeroPage zp => exact ⟨.zeroPage zp, rfl, rfl, rfl, (0x86, .zeroPage), by decide, rfl, rfl⟩
  | stxZeroPageY zp => exact ⟨.zeroPageY zp, rfl, rfl, rfl, (0x96, .zeroPageY), by decide, rfl, rfl⟩
  | stxAbsolute addr => exact ⟨.absolute addr, rfl, rfl, rfl, (0x8E, .absolute), by decide, rfl, rfl⟩
  | _ => nomatch h

/-- STY: 3 forms. -/
theorem sty_forms {i : Instr} (s : State) (h : i.mnemonic = .sty) :
    ∃ src : MemMode, i.operand = .memory src ∧ i.length = src.length ∧ exec i s = .next (storeByte s.y src s) ∧
      HasOpcode i [(0x84, .zeroPage), (0x94, .zeroPageX), (0x8C, .absolute)] := by
  cases i with
  | styZeroPage zp => exact ⟨.zeroPage zp, rfl, rfl, rfl, (0x84, .zeroPage), by decide, rfl, rfl⟩
  | styZeroPageX zp => exact ⟨.zeroPageX zp, rfl, rfl, rfl, (0x94, .zeroPageX), by decide, rfl, rfl⟩
  | styAbsolute addr => exact ⟨.absolute addr, rfl, rfl, rfl, (0x8C, .absolute), by decide, rfl, rfl⟩
  | _ => nomatch h

/-- BCC: one form. -/
theorem bcc_form {i : Instr} (h : i.mnemonic = .bcc) : ∃ disp : Byte, i = .bcc disp := by
  cases i with
  | bcc disp => exact ⟨disp, rfl⟩
  | _ => nomatch h

/-- BCS: one form. -/
theorem bcs_form {i : Instr} (h : i.mnemonic = .bcs) : ∃ disp : Byte, i = .bcs disp := by
  cases i with
  | bcs disp => exact ⟨disp, rfl⟩
  | _ => nomatch h

/-- BEQ: one form. -/
theorem beq_form {i : Instr} (h : i.mnemonic = .beq) : ∃ disp : Byte, i = .beq disp := by
  cases i with
  | beq disp => exact ⟨disp, rfl⟩
  | _ => nomatch h

/-- BMI: one form. -/
theorem bmi_form {i : Instr} (h : i.mnemonic = .bmi) : ∃ disp : Byte, i = .bmi disp := by
  cases i with
  | bmi disp => exact ⟨disp, rfl⟩
  | _ => nomatch h

/-- BNE: one form. -/
theorem bne_form {i : Instr} (h : i.mnemonic = .bne) : ∃ disp : Byte, i = .bne disp := by
  cases i with
  | bne disp => exact ⟨disp, rfl⟩
  | _ => nomatch h

/-- BPL: one form. -/
theorem bpl_form {i : Instr} (h : i.mnemonic = .bpl) : ∃ disp : Byte, i = .bpl disp := by
  cases i with
  | bpl disp => exact ⟨disp, rfl⟩
  | _ => nomatch h

/-- BVC: one form. -/
theorem bvc_form {i : Instr} (h : i.mnemonic = .bvc) : ∃ disp : Byte, i = .bvc disp := by
  cases i with
  | bvc disp => exact ⟨disp, rfl⟩
  | _ => nomatch h

/-- BVS: one form. -/
theorem bvs_form {i : Instr} (h : i.mnemonic = .bvs) : ∃ disp : Byte, i = .bvs disp := by
  cases i with
  | bvs disp => exact ⟨disp, rfl⟩
  | _ => nomatch h

end Sys2Proof.Machine
end

