-- ==== Sys2Proof/Laws/Memory.lean ====
section
/-! SUPPORT. The laws of memory (20_memory.md R50, R52): a read after a write, and the canonical form every operation keeps. -/

namespace Sys2Proof.Machine

open Sys2Proof

theorem read_erase (m : Memory) (a b : Nat) :
    Memory.read (Memory.erase m a) b = if b = a then unlistedByte else Memory.read m b := by
  induction m with
  | nil => simp [Memory.erase, Memory.read]
  | cons c rest ih =>
    obtain ⟨k, v⟩ := c
    by_cases hk : k = a
    · subst hk
      simp only [Memory.erase, if_true, Memory.read, ih]
      by_cases hb : b = k
      · simp [hb]
      · simp [hb, Ne.symm hb]
    · simp only [Memory.erase, hk, if_false, Memory.read, ih]
      by_cases hb : k = b
      · subst hb; simp [hk]
      · simp [hb]

theorem read_insert (m : Memory) (a b : Nat) (v : Byte) :
    Memory.read (Memory.insert (Memory.erase m a) a v) b = if b = a then v else Memory.read m b := by
  have key : ∀ l : Memory, (∀ c ∈ l, c.1 ≠ a) →
      Memory.read (Memory.insert l a v) b = if b = a then v else Memory.read l b := by
    intro l hl
    induction l with
    | nil => simp [Memory.insert, Memory.read, eq_comm]
    | cons c rest ih =>
      obtain ⟨k, w⟩ := c
      have hka : k ≠ a := hl (k, w) (by simp)
      have ih' := ih (fun c hc => hl c (by simp [hc]))
      by_cases hlt : a < k
      · simp [Memory.insert, hlt, Memory.read, eq_comm]
      · simp only [Memory.insert, hlt, if_false, Memory.read, ih']
        by_cases hb : k = b
        · subst hb; simp [hka]
        · simp [hb]
  have herase : ∀ l : Memory, ∀ c ∈ Memory.erase l a, c.1 ≠ a := by
    intro l
    induction l with
    | nil => simp [Memory.erase]
    | cons c rest ih =>
      obtain ⟨k, w⟩ := c
      by_cases hk : k = a
      · simpa [Memory.erase, hk] using ih
      · intro c hc
        simp only [Memory.erase, hk, if_false, List.mem_cons] at hc
        rcases hc with rfl | hc
        · exact hk
        · exact ih c hc
  rw [key _ (herase m), read_erase]
  by_cases hb : b = a <;> simp [hb]

/-- A read after a write: the byte written at its address, every other byte as it was. -/
theorem read_write (m : Memory) (a b : Nat) (v : Byte) :
    Memory.read (Memory.write m a v) b = if b = a then v else Memory.read m b := by
  unfold Memory.write
  split
  · next h => rw [read_erase, h]
  · exact read_insert m a b v

theorem wfFrom_mono {m : Memory} {lo lo' : Nat} (h : lo' ≤ lo) (hm : Memory.wfFrom lo m = true) :
    Memory.wfFrom lo' m = true := by
  cases m with
  | nil => rfl
  | cons c rest =>
    obtain ⟨k, v⟩ := c
    simp only [Memory.wfFrom, Bool.and_eq_true, decide_eq_true_eq] at hm ⊢
    exact ⟨⟨⟨by omega, hm.1.1.2⟩, hm.1.2⟩, hm.2⟩

theorem wfFrom_erase {m : Memory} {lo : Nat} (a : Nat) (hm : Memory.wfFrom lo m = true) :
    Memory.wfFrom lo (Memory.erase m a) = true := by
  induction m generalizing lo with
  | nil => rfl
  | cons c rest ih =>
    obtain ⟨k, v⟩ := c
    simp only [Memory.wfFrom, Bool.and_eq_true, decide_eq_true_eq] at hm
    by_cases hk : k = a
    · simp only [Memory.erase, hk, if_true]
      exact wfFrom_mono (by omega) (ih hm.2)
    · simp only [Memory.erase, hk, if_false, Memory.wfFrom, Bool.and_eq_true, decide_eq_true_eq]
      exact ⟨hm.1, ih hm.2⟩

theorem wfFrom_insert {m : Memory} {lo a : Nat} {v : Byte} (hlo : lo ≤ a) (ha : a < addressSpace) (hv : v ≠ unlistedByte)
    (hm : Memory.wfFrom lo (Memory.erase m a) = true) :
    Memory.wfFrom lo (Memory.insert (Memory.erase m a) a v) = true := by
  induction m generalizing lo with
  | nil => simp [Memory.erase, Memory.insert, Memory.wfFrom, hlo, ha, hv]
  | cons c rest ih =>
    obtain ⟨k, w⟩ := c
    by_cases hk : k = a
    · simp only [Memory.erase, hk, if_true] at hm ⊢
      exact ih hlo hm
    · simp only [Memory.erase, hk, if_false, Memory.wfFrom, Bool.and_eq_true, decide_eq_true_eq] at hm ⊢
      by_cases hlt : a < k
      · simp only [Memory.insert, hlt, if_true, Memory.wfFrom, Bool.and_eq_true, decide_eq_true_eq, bne_iff_ne]
        exact ⟨⟨⟨hlo, ha⟩, hv⟩, ⟨⟨⟨by omega, hm.1.1.2⟩, by simpa using hm.1.2⟩, hm.2⟩⟩
      · simp only [Memory.insert, hlt, if_false, Memory.wfFrom, Bool.and_eq_true, decide_eq_true_eq]
        exact ⟨hm.1, ih (by omega) hm.2⟩

/-- A write inside the address space keeps the canonical form. -/
theorem write_wf {m : Memory} {a : Nat} (v : Byte) (ha : a < addressSpace) (hm : Memory.wf m = true) :
    Memory.wf (Memory.write m a v) = true := by
  unfold Memory.write Memory.wf at *
  split
  · exact wfFrom_erase a hm
  · next h => exact wfFrom_insert (Nat.zero_le a) ha h (wfFrom_erase a hm)

/-- The memory after reset has the canonical form. -/
theorem reset_mem_wf : Memory.wf State.reset.mem = true := rfl

end Sys2Proof.Machine
end

