-- ==== Sys2Proof/Laws/State.lean ====
section
/-! SUPPORT. One lemma per field per register update, true by `rfl`, so that no proof unfolds a record update. -/

namespace Sys2Proof.Machine

open Sys2Proof

@[simp] theorem setA_a (s : State) (v : Byte) : (s.setA v).a = v := rfl
@[simp] theorem setA_x (s : State) (v : Byte) : (s.setA v).x = s.x := rfl
@[simp] theorem setA_y (s : State) (v : Byte) : (s.setA v).y = s.y := rfl
@[simp] theorem setA_s (s : State) (v : Byte) : (s.setA v).s = s.s := rfl
@[simp] theorem setA_pc (s : State) (v : Byte) : (s.setA v).pc = s.pc := rfl
@[simp] theorem setA_p (s : State) (v : Byte) : (s.setA v).p = s.p := rfl
@[simp] theorem setA_nmiPending (s : State) (v : Byte) : (s.setA v).nmiPending = s.nmiPending := rfl
@[simp] theorem setA_irqWindow (s : State) (v : Byte) : (s.setA v).irqWindow = s.irqWindow := rfl
@[simp] theorem setA_mem (s : State) (v : Byte) : (s.setA v).mem = s.mem := rfl
@[simp] theorem setA_platform (s : State) (v : Byte) : (s.setA v).platform = s.platform := rfl
@[simp] theorem setA_inputs (s : State) (v : Byte) : (s.setA v).inputs = s.inputs := rfl
@[simp] theorem setA_answers (s : State) (v : Byte) : (s.setA v).answers = s.answers := rfl
@[simp] theorem setA_busLog (s : State) (v : Byte) : (s.setA v).busLog = s.busLog := rfl
@[simp] theorem setA_freeCount (s : State) (v : Byte) : (s.setA v).freeCount = s.freeCount := rfl
@[simp] theorem setA_byteAt (s : State) (v : Byte) (b : Word) : (s.setA v).byteAt b = s.byteAt b := rfl

@[simp] theorem setX_a (s : State) (v : Byte) : (s.setX v).a = s.a := rfl
@[simp] theorem setX_x (s : State) (v : Byte) : (s.setX v).x = v := rfl
@[simp] theorem setX_y (s : State) (v : Byte) : (s.setX v).y = s.y := rfl
@[simp] theorem setX_s (s : State) (v : Byte) : (s.setX v).s = s.s := rfl
@[simp] theorem setX_pc (s : State) (v : Byte) : (s.setX v).pc = s.pc := rfl
@[simp] theorem setX_p (s : State) (v : Byte) : (s.setX v).p = s.p := rfl
@[simp] theorem setX_nmiPending (s : State) (v : Byte) : (s.setX v).nmiPending = s.nmiPending := rfl
@[simp] theorem setX_irqWindow (s : State) (v : Byte) : (s.setX v).irqWindow = s.irqWindow := rfl
@[simp] theorem setX_mem (s : State) (v : Byte) : (s.setX v).mem = s.mem := rfl
@[simp] theorem setX_platform (s : State) (v : Byte) : (s.setX v).platform = s.platform := rfl
@[simp] theorem setX_inputs (s : State) (v : Byte) : (s.setX v).inputs = s.inputs := rfl
@[simp] theorem setX_answers (s : State) (v : Byte) : (s.setX v).answers = s.answers := rfl
@[simp] theorem setX_busLog (s : State) (v : Byte) : (s.setX v).busLog = s.busLog := rfl
@[simp] theorem setX_freeCount (s : State) (v : Byte) : (s.setX v).freeCount = s.freeCount := rfl
@[simp] theorem setX_byteAt (s : State) (v : Byte) (b : Word) : (s.setX v).byteAt b = s.byteAt b := rfl

@[simp] theorem setY_a (s : State) (v : Byte) : (s.setY v).a = s.a := rfl
@[simp] theorem setY_x (s : State) (v : Byte) : (s.setY v).x = s.x := rfl
@[simp] theorem setY_y (s : State) (v : Byte) : (s.setY v).y = v := rfl
@[simp] theorem setY_s (s : State) (v : Byte) : (s.setY v).s = s.s := rfl
@[simp] theorem setY_pc (s : State) (v : Byte) : (s.setY v).pc = s.pc := rfl
@[simp] theorem setY_p (s : State) (v : Byte) : (s.setY v).p = s.p := rfl
@[simp] theorem setY_nmiPending (s : State) (v : Byte) : (s.setY v).nmiPending = s.nmiPending := rfl
@[simp] theorem setY_irqWindow (s : State) (v : Byte) : (s.setY v).irqWindow = s.irqWindow := rfl
@[simp] theorem setY_mem (s : State) (v : Byte) : (s.setY v).mem = s.mem := rfl
@[simp] theorem setY_platform (s : State) (v : Byte) : (s.setY v).platform = s.platform := rfl
@[simp] theorem setY_inputs (s : State) (v : Byte) : (s.setY v).inputs = s.inputs := rfl
@[simp] theorem setY_answers (s : State) (v : Byte) : (s.setY v).answers = s.answers := rfl
@[simp] theorem setY_busLog (s : State) (v : Byte) : (s.setY v).busLog = s.busLog := rfl
@[simp] theorem setY_freeCount (s : State) (v : Byte) : (s.setY v).freeCount = s.freeCount := rfl
@[simp] theorem setY_byteAt (s : State) (v : Byte) (b : Word) : (s.setY v).byteAt b = s.byteAt b := rfl

@[simp] theorem setS_a (s : State) (v : Byte) : (s.setS v).a = s.a := rfl
@[simp] theorem setS_x (s : State) (v : Byte) : (s.setS v).x = s.x := rfl
@[simp] theorem setS_y (s : State) (v : Byte) : (s.setS v).y = s.y := rfl
@[simp] theorem setS_s (s : State) (v : Byte) : (s.setS v).s = v := rfl
@[simp] theorem setS_pc (s : State) (v : Byte) : (s.setS v).pc = s.pc := rfl
@[simp] theorem setS_p (s : State) (v : Byte) : (s.setS v).p = s.p := rfl
@[simp] theorem setS_nmiPending (s : State) (v : Byte) : (s.setS v).nmiPending = s.nmiPending := rfl
@[simp] theorem setS_irqWindow (s : State) (v : Byte) : (s.setS v).irqWindow = s.irqWindow := rfl
@[simp] theorem setS_mem (s : State) (v : Byte) : (s.setS v).mem = s.mem := rfl
@[simp] theorem setS_platform (s : State) (v : Byte) : (s.setS v).platform = s.platform := rfl
@[simp] theorem setS_inputs (s : State) (v : Byte) : (s.setS v).inputs = s.inputs := rfl
@[simp] theorem setS_answers (s : State) (v : Byte) : (s.setS v).answers = s.answers := rfl
@[simp] theorem setS_busLog (s : State) (v : Byte) : (s.setS v).busLog = s.busLog := rfl
@[simp] theorem setS_freeCount (s : State) (v : Byte) : (s.setS v).freeCount = s.freeCount := rfl
@[simp] theorem setS_byteAt (s : State) (v : Byte) (b : Word) : (s.setS v).byteAt b = s.byteAt b := rfl

@[simp] theorem setPc_a (s : State) (w : Word) : (s.setPc w).a = s.a := rfl
@[simp] theorem setPc_x (s : State) (w : Word) : (s.setPc w).x = s.x := rfl
@[simp] theorem setPc_y (s : State) (w : Word) : (s.setPc w).y = s.y := rfl
@[simp] theorem setPc_s (s : State) (w : Word) : (s.setPc w).s = s.s := rfl
@[simp] theorem setPc_pc (s : State) (w : Word) : (s.setPc w).pc = w := rfl
@[simp] theorem setPc_p (s : State) (w : Word) : (s.setPc w).p = s.p := rfl
@[simp] theorem setPc_nmiPending (s : State) (w : Word) : (s.setPc w).nmiPending = s.nmiPending := rfl
@[simp] theorem setPc_irqWindow (s : State) (w : Word) : (s.setPc w).irqWindow = s.irqWindow := rfl
@[simp] theorem setPc_mem (s : State) (w : Word) : (s.setPc w).mem = s.mem := rfl
@[simp] theorem setPc_platform (s : State) (w : Word) : (s.setPc w).platform = s.platform := rfl
@[simp] theorem setPc_inputs (s : State) (w : Word) : (s.setPc w).inputs = s.inputs := rfl
@[simp] theorem setPc_answers (s : State) (w : Word) : (s.setPc w).answers = s.answers := rfl
@[simp] theorem setPc_busLog (s : State) (w : Word) : (s.setPc w).busLog = s.busLog := rfl
@[simp] theorem setPc_freeCount (s : State) (w : Word) : (s.setPc w).freeCount = s.freeCount := rfl
@[simp] theorem setPc_byteAt (s : State) (w : Word) (b : Word) : (s.setPc w).byteAt b = s.byteAt b := rfl

@[simp] theorem setP_a (s : State) (f : Flags) : (s.setP f).a = s.a := rfl
@[simp] theorem setP_x (s : State) (f : Flags) : (s.setP f).x = s.x := rfl
@[simp] theorem setP_y (s : State) (f : Flags) : (s.setP f).y = s.y := rfl
@[simp] theorem setP_s (s : State) (f : Flags) : (s.setP f).s = s.s := rfl
@[simp] theorem setP_pc (s : State) (f : Flags) : (s.setP f).pc = s.pc := rfl
@[simp] theorem setP_p (s : State) (f : Flags) : (s.setP f).p = f := rfl
@[simp] theorem setP_nmiPending (s : State) (f : Flags) : (s.setP f).nmiPending = s.nmiPending := rfl
@[simp] theorem setP_irqWindow (s : State) (f : Flags) : (s.setP f).irqWindow = s.irqWindow := rfl
@[simp] theorem setP_mem (s : State) (f : Flags) : (s.setP f).mem = s.mem := rfl
@[simp] theorem setP_platform (s : State) (f : Flags) : (s.setP f).platform = s.platform := rfl
@[simp] theorem setP_inputs (s : State) (f : Flags) : (s.setP f).inputs = s.inputs := rfl
@[simp] theorem setP_answers (s : State) (f : Flags) : (s.setP f).answers = s.answers := rfl
@[simp] theorem setP_busLog (s : State) (f : Flags) : (s.setP f).busLog = s.busLog := rfl
@[simp] theorem setP_freeCount (s : State) (f : Flags) : (s.setP f).freeCount = s.freeCount := rfl
@[simp] theorem setP_byteAt (s : State) (f : Flags) (b : Word) : (s.setP f).byteAt b = s.byteAt b := rfl

@[simp] theorem setIrqWindow_a (s : State) (w : Bool) : (s.setIrqWindow w).a = s.a := rfl
@[simp] theorem setIrqWindow_x (s : State) (w : Bool) : (s.setIrqWindow w).x = s.x := rfl
@[simp] theorem setIrqWindow_y (s : State) (w : Bool) : (s.setIrqWindow w).y = s.y := rfl
@[simp] theorem setIrqWindow_s (s : State) (w : Bool) : (s.setIrqWindow w).s = s.s := rfl
@[simp] theorem setIrqWindow_pc (s : State) (w : Bool) : (s.setIrqWindow w).pc = s.pc := rfl
@[simp] theorem setIrqWindow_p (s : State) (w : Bool) : (s.setIrqWindow w).p = s.p := rfl
@[simp] theorem setIrqWindow_nmiPending (s : State) (w : Bool) : (s.setIrqWindow w).nmiPending = s.nmiPending := rfl
@[simp] theorem setIrqWindow_irqWindow (s : State) (w : Bool) : (s.setIrqWindow w).irqWindow = w := rfl
@[simp] theorem setIrqWindow_mem (s : State) (w : Bool) : (s.setIrqWindow w).mem = s.mem := rfl
@[simp] theorem setIrqWindow_platform (s : State) (w : Bool) : (s.setIrqWindow w).platform = s.platform := rfl
@[simp] theorem setIrqWindow_inputs (s : State) (w : Bool) : (s.setIrqWindow w).inputs = s.inputs := rfl
@[simp] theorem setIrqWindow_answers (s : State) (w : Bool) : (s.setIrqWindow w).answers = s.answers := rfl
@[simp] theorem setIrqWindow_busLog (s : State) (w : Bool) : (s.setIrqWindow w).busLog = s.busLog := rfl
@[simp] theorem setIrqWindow_freeCount (s : State) (w : Bool) : (s.setIrqWindow w).freeCount = s.freeCount := rfl
@[simp] theorem setIrqWindow_byteAt (s : State) (w : Bool) (b : Word) : (s.setIrqWindow w).byteAt b = s.byteAt b := rfl

@[simp] theorem advance_a (s : State) (n : Nat) : (s.advance n).a = s.a := rfl
@[simp] theorem advance_x (s : State) (n : Nat) : (s.advance n).x = s.x := rfl
@[simp] theorem advance_y (s : State) (n : Nat) : (s.advance n).y = s.y := rfl
@[simp] theorem advance_s (s : State) (n : Nat) : (s.advance n).s = s.s := rfl
@[simp] theorem advance_pc (s : State) (n : Nat) : (s.advance n).pc = (s.pc + BitVec.ofNat 16 n) := rfl
@[simp] theorem advance_p (s : State) (n : Nat) : (s.advance n).p = s.p := rfl
@[simp] theorem advance_nmiPending (s : State) (n : Nat) : (s.advance n).nmiPending = s.nmiPending := rfl
@[simp] theorem advance_irqWindow (s : State) (n : Nat) : (s.advance n).irqWindow = s.irqWindow := rfl
@[simp] theorem advance_mem (s : State) (n : Nat) : (s.advance n).mem = s.mem := rfl
@[simp] theorem advance_platform (s : State) (n : Nat) : (s.advance n).platform = s.platform := rfl
@[simp] theorem advance_inputs (s : State) (n : Nat) : (s.advance n).inputs = s.inputs := rfl
@[simp] theorem advance_answers (s : State) (n : Nat) : (s.advance n).answers = s.answers := rfl
@[simp] theorem advance_busLog (s : State) (n : Nat) : (s.advance n).busLog = s.busLog := rfl
@[simp] theorem advance_freeCount (s : State) (n : Nat) : (s.advance n).freeCount = s.freeCount := rfl
@[simp] theorem advance_byteAt (s : State) (n : Nat) (b : Word) : (s.advance n).byteAt b = s.byteAt b := rfl

end Sys2Proof.Machine
end

