-- ==== Sys2Proof/Laws/Ops.lean ====
section
/-! SUPPORT. What the shared operations over the bus and the operands do: a read changes nothing but the platform's answers,
the device log and the free-value counter; a write changes nothing but memory and the device log (20_memory.md R52). -/

namespace Sys2Proof.Machine

open Sys2Proof

/-! ### Reads keep the machine -/

@[simp] theorem busRead_a (s : State) (w : Word) :
    (s.busRead w).2.a = s.a := by
  unfold State.busRead; split <;> (try split) <;> rfl
@[simp] theorem busRead_x (s : State) (w : Word) :
    (s.busRead w).2.x = s.x := by
  unfold State.busRead; split <;> (try split) <;> rfl
@[simp] theorem busRead_y (s : State) (w : Word) :
    (s.busRead w).2.y = s.y := by
  unfold State.busRead; split <;> (try split) <;> rfl
@[simp] theorem busRead_s (s : State) (w : Word) :
    (s.busRead w).2.s = s.s := by
  unfold State.busRead; split <;> (try split) <;> rfl
@[simp] theorem busRead_pc (s : State) (w : Word) :
    (s.busRead w).2.pc = s.pc := by
  unfold State.busRead; split <;> (try split) <;> rfl
@[simp] theorem busRead_p (s : State) (w : Word) :
    (s.busRead w).2.p = s.p := by
  unfold State.busRead; split <;> (try split) <;> rfl
@[simp] theorem busRead_nmiPending (s : State) (w : Word) :
    (s.busRead w).2.nmiPending = s.nmiPending := by
  unfold State.busRead; split <;> (try split) <;> rfl
@[simp] theorem busRead_irqWindow (s : State) (w : Word) :
    (s.busRead w).2.irqWindow = s.irqWindow := by
  unfold State.busRead; split <;> (try split) <;> rfl
@[simp] theorem busRead_mem (s : State) (w : Word) :
    (s.busRead w).2.mem = s.mem := by
  unfold State.busRead; split <;> (try split) <;> rfl
@[simp] theorem busRead_platform (s : State) (w : Word) :
    (s.busRead w).2.platform = s.platform := by
  unfold State.busRead; split <;> (try split) <;> rfl
@[simp] theorem busRead_inputs (s : State) (w : Word) :
    (s.busRead w).2.inputs = s.inputs := by
  unfold State.busRead; split <;> (try split) <;> rfl
@[simp] theorem busRead_byteAt (s : State) (w : Word) (b : Word) : (s.busRead w).2.byteAt b = s.byteAt b := by
  simp [State.byteAt]

@[simp] theorem readPair_a (s : State) (lo hi : Word) : (s.readPair lo hi).2.a = s.a := by
  simp [State.readPair]
@[simp] theorem readPair_x (s : State) (lo hi : Word) : (s.readPair lo hi).2.x = s.x := by
  simp [State.readPair]
@[simp] theorem readPair_y (s : State) (lo hi : Word) : (s.readPair lo hi).2.y = s.y := by
  simp [State.readPair]
@[simp] theorem readPair_s (s : State) (lo hi : Word) : (s.readPair lo hi).2.s = s.s := by
  simp [State.readPair]
@[simp] theorem readPair_pc (s : State) (lo hi : Word) : (s.readPair lo hi).2.pc = s.pc := by
  simp [State.readPair]
@[simp] theorem readPair_p (s : State) (lo hi : Word) : (s.readPair lo hi).2.p = s.p := by
  simp [State.readPair]
@[simp] theorem readPair_nmiPending (s : State) (lo hi : Word) :
    (s.readPair lo hi).2.nmiPending = s.nmiPending := by
  simp [State.readPair]
@[simp] theorem readPair_irqWindow (s : State) (lo hi : Word) :
    (s.readPair lo hi).2.irqWindow = s.irqWindow := by
  simp [State.readPair]
@[simp] theorem readPair_mem (s : State) (lo hi : Word) : (s.readPair lo hi).2.mem = s.mem := by
  simp [State.readPair]
@[simp] theorem readPair_platform (s : State) (lo hi : Word) :
    (s.readPair lo hi).2.platform = s.platform := by
  simp [State.readPair]
@[simp] theorem readPair_inputs (s : State) (lo hi : Word) :
    (s.readPair lo hi).2.inputs = s.inputs := by
  simp [State.readPair]
@[simp] theorem readPair_byteAt (s : State) (lo hi : Word) (b : Word) : (s.readPair lo hi).2.byteAt b = s.byteAt b := by
  simp [State.byteAt]

@[simp] theorem read16_a (s : State) (w : Word) : (s.read16 w).2.a = s.a := by simp [State.read16]
@[simp] theorem read16_x (s : State) (w : Word) : (s.read16 w).2.x = s.x := by simp [State.read16]
@[simp] theorem read16_y (s : State) (w : Word) : (s.read16 w).2.y = s.y := by simp [State.read16]
@[simp] theorem read16_s (s : State) (w : Word) : (s.read16 w).2.s = s.s := by simp [State.read16]
@[simp] theorem read16_pc (s : State) (w : Word) : (s.read16 w).2.pc = s.pc := by simp [State.read16]
@[simp] theorem read16_p (s : State) (w : Word) : (s.read16 w).2.p = s.p := by simp [State.read16]
@[simp] theorem read16_nmiPending (s : State) (w : Word) :
    (s.read16 w).2.nmiPending = s.nmiPending := by simp [State.read16]
@[simp] theorem read16_irqWindow (s : State) (w : Word) : (s.read16 w).2.irqWindow = s.irqWindow := by simp [State.read16]
@[simp] theorem read16_mem (s : State) (w : Word) : (s.read16 w).2.mem = s.mem := by simp [State.read16]
@[simp] theorem read16_platform (s : State) (w : Word) : (s.read16 w).2.platform = s.platform := by simp [State.read16]
@[simp] theorem read16_inputs (s : State) (w : Word) : (s.read16 w).2.inputs = s.inputs := by simp [State.read16]
@[simp] theorem read16_byteAt (s : State) (w : Word) (b : Word) : (s.read16 w).2.byteAt b = s.byteAt b := by
  simp [State.byteAt]

@[simp] theorem read16ZP_a (s : State) (zp : Byte) : (s.read16ZP zp).2.a = s.a := by simp [State.read16ZP]
@[simp] theorem read16ZP_x (s : State) (zp : Byte) : (s.read16ZP zp).2.x = s.x := by simp [State.read16ZP]
@[simp] theorem read16ZP_y (s : State) (zp : Byte) : (s.read16ZP zp).2.y = s.y := by simp [State.read16ZP]
@[simp] theorem read16ZP_s (s : State) (zp : Byte) : (s.read16ZP zp).2.s = s.s := by simp [State.read16ZP]
@[simp] theorem read16ZP_pc (s : State) (zp : Byte) : (s.read16ZP zp).2.pc = s.pc := by simp [State.read16ZP]
@[simp] theorem read16ZP_p (s : State) (zp : Byte) : (s.read16ZP zp).2.p = s.p := by simp [State.read16ZP]
@[simp] theorem read16ZP_nmiPending (s : State) (zp : Byte) :
    (s.read16ZP zp).2.nmiPending = s.nmiPending := by simp [State.read16ZP]
@[simp] theorem read16ZP_irqWindow (s : State) (zp : Byte) :
    (s.read16ZP zp).2.irqWindow = s.irqWindow := by simp [State.read16ZP]
@[simp] theorem read16ZP_mem (s : State) (zp : Byte) : (s.read16ZP zp).2.mem = s.mem := by simp [State.read16ZP]
@[simp] theorem read16ZP_platform (s : State) (zp : Byte) :
    (s.read16ZP zp).2.platform = s.platform := by simp [State.read16ZP]
@[simp] theorem read16ZP_inputs (s : State) (zp : Byte) : (s.read16ZP zp).2.inputs = s.inputs := by simp [State.read16ZP]
@[simp] theorem read16ZP_byteAt (s : State) (zp : Byte) (b : Word) : (s.read16ZP zp).2.byteAt b = s.byteAt b := by
  simp [State.byteAt]

@[simp] theorem read16Page_a (s : State) (w : Word) : (s.read16Page w).2.a = s.a := by simp [State.read16Page]
@[simp] theorem read16Page_x (s : State) (w : Word) : (s.read16Page w).2.x = s.x := by simp [State.read16Page]
@[simp] theorem read16Page_y (s : State) (w : Word) : (s.read16Page w).2.y = s.y := by simp [State.read16Page]
@[simp] theorem read16Page_s (s : State) (w : Word) : (s.read16Page w).2.s = s.s := by simp [State.read16Page]
@[simp] theorem read16Page_pc (s : State) (w : Word) : (s.read16Page w).2.pc = s.pc := by simp [State.read16Page]
@[simp] theorem read16Page_p (s : State) (w : Word) : (s.read16Page w).2.p = s.p := by simp [State.read16Page]
@[simp] theorem read16Page_nmiPending (s : State) (w : Word) :
    (s.read16Page w).2.nmiPending = s.nmiPending := by simp [State.read16Page]
@[simp] theorem read16Page_irqWindow (s : State) (w : Word) :
    (s.read16Page w).2.irqWindow = s.irqWindow := by simp [State.read16Page]
@[simp] theorem read16Page_mem (s : State) (w : Word) : (s.read16Page w).2.mem = s.mem := by simp [State.read16Page]
@[simp] theorem read16Page_platform (s : State) (w : Word) :
    (s.read16Page w).2.platform = s.platform := by simp [State.read16Page]
@[simp] theorem read16Page_inputs (s : State) (w : Word) :
    (s.read16Page w).2.inputs = s.inputs := by simp [State.read16Page]
@[simp] theorem read16Page_byteAt (s : State) (w : Word) (b : Word) : (s.read16Page w).2.byteAt b = s.byteAt b := by
  simp [State.byteAt]

@[simp] theorem indirectTarget_a (s : State) (w : Word) :
    (s.indirectTarget w).2.a = s.a := by
  unfold State.indirectTarget; split <;> simp
@[simp] theorem indirectTarget_x (s : State) (w : Word) :
    (s.indirectTarget w).2.x = s.x := by
  unfold State.indirectTarget; split <;> simp
@[simp] theorem indirectTarget_y (s : State) (w : Word) :
    (s.indirectTarget w).2.y = s.y := by
  unfold State.indirectTarget; split <;> simp
@[simp] theorem indirectTarget_s (s : State) (w : Word) :
    (s.indirectTarget w).2.s = s.s := by
  unfold State.indirectTarget; split <;> simp
@[simp] theorem indirectTarget_pc (s : State) (w : Word) :
    (s.indirectTarget w).2.pc = s.pc := by
  unfold State.indirectTarget; split <;> simp
@[simp] theorem indirectTarget_p (s : State) (w : Word) :
    (s.indirectTarget w).2.p = s.p := by
  unfold State.indirectTarget; split <;> simp
@[simp] theorem indirectTarget_nmiPending (s : State) (w : Word) :
    (s.indirectTarget w).2.nmiPending = s.nmiPending := by
  unfold State.indirectTarget; split <;> simp
@[simp] theorem indirectTarget_irqWindow (s : State) (w : Word) :
    (s.indirectTarget w).2.irqWindow = s.irqWindow := by
  unfold State.indirectTarget; split <;> simp
@[simp] theorem indirectTarget_mem (s : State) (w : Word) :
    (s.indirectTarget w).2.mem = s.mem := by
  unfold State.indirectTarget; split <;> simp
@[simp] theorem indirectTarget_platform (s : State) (w : Word) :
    (s.indirectTarget w).2.platform = s.platform := by
  unfold State.indirectTarget; split <;> simp
@[simp] theorem indirectTarget_inputs (s : State) (w : Word) :
    (s.indirectTarget w).2.inputs = s.inputs := by
  unfold State.indirectTarget; split <;> simp
@[simp] theorem indirectTarget_byteAt (s : State) (w : Word) (b : Word) : (s.indirectTarget w).2.byteAt b = s.byteAt b := by
  simp [State.byteAt]

@[simp] theorem address_a (m : MemMode) (s : State) : (m.address s).2.a = s.a := by
  cases m <;> simp [MemMode.address]
@[simp] theorem address_x (m : MemMode) (s : State) : (m.address s).2.x = s.x := by
  cases m <;> simp [MemMode.address]
@[simp] theorem address_y (m : MemMode) (s : State) : (m.address s).2.y = s.y := by
  cases m <;> simp [MemMode.address]
@[simp] theorem address_s (m : MemMode) (s : State) : (m.address s).2.s = s.s := by
  cases m <;> simp [MemMode.address]
@[simp] theorem address_pc (m : MemMode) (s : State) :
    (m.address s).2.pc = s.pc := by
  cases m <;> simp [MemMode.address]
@[simp] theorem address_p (m : MemMode) (s : State) : (m.address s).2.p = s.p := by
  cases m <;> simp [MemMode.address]
@[simp] theorem address_nmiPending (m : MemMode) (s : State) :
    (m.address s).2.nmiPending = s.nmiPending := by
  cases m <;> simp [MemMode.address]
@[simp] theorem address_irqWindow (m : MemMode) (s : State) :
    (m.address s).2.irqWindow = s.irqWindow := by
  cases m <;> simp [MemMode.address]
@[simp] theorem address_mem (m : MemMode) (s : State) :
    (m.address s).2.mem = s.mem := by
  cases m <;> simp [MemMode.address]
@[simp] theorem address_platform (m : MemMode) (s : State) :
    (m.address s).2.platform = s.platform := by
  cases m <;> simp [MemMode.address]
@[simp] theorem address_inputs (m : MemMode) (s : State) :
    (m.address s).2.inputs = s.inputs := by
  cases m <;> simp [MemMode.address]
@[simp] theorem address_byteAt (m : MemMode) (s : State) (b : Word) : (m.address s).2.byteAt b = s.byteAt b := by
  simp [State.byteAt]

@[simp] theorem load_a (m : MemMode) (s : State) : (m.load s).2.a = s.a := by simp [MemMode.load]
@[simp] theorem load_x (m : MemMode) (s : State) : (m.load s).2.x = s.x := by simp [MemMode.load]
@[simp] theorem load_y (m : MemMode) (s : State) : (m.load s).2.y = s.y := by simp [MemMode.load]
@[simp] theorem load_s (m : MemMode) (s : State) : (m.load s).2.s = s.s := by simp [MemMode.load]
@[simp] theorem load_pc (m : MemMode) (s : State) : (m.load s).2.pc = s.pc := by simp [MemMode.load]
@[simp] theorem load_p (m : MemMode) (s : State) : (m.load s).2.p = s.p := by simp [MemMode.load]
@[simp] theorem load_nmiPending (m : MemMode) (s : State) :
    (m.load s).2.nmiPending = s.nmiPending := by simp [MemMode.load]
@[simp] theorem load_irqWindow (m : MemMode) (s : State) : (m.load s).2.irqWindow = s.irqWindow := by simp [MemMode.load]
@[simp] theorem load_mem (m : MemMode) (s : State) : (m.load s).2.mem = s.mem := by simp [MemMode.load]
@[simp] theorem load_platform (m : MemMode) (s : State) : (m.load s).2.platform = s.platform := by simp [MemMode.load]
@[simp] theorem load_inputs (m : MemMode) (s : State) : (m.load s).2.inputs = s.inputs := by simp [MemMode.load]
@[simp] theorem load_byteAt (m : MemMode) (s : State) (b : Word) : (m.load s).2.byteAt b = s.byteAt b := by
  simp [State.byteAt]

@[simp] theorem sourceLoad_a (src : Source) (s : State) : (src.load s).2.a = s.a := by
  cases src <;> simp [Source.load]
@[simp] theorem sourceLoad_x (src : Source) (s : State) : (src.load s).2.x = s.x := by
  cases src <;> simp [Source.load]
@[simp] theorem sourceLoad_y (src : Source) (s : State) : (src.load s).2.y = s.y := by
  cases src <;> simp [Source.load]
@[simp] theorem sourceLoad_s (src : Source) (s : State) : (src.load s).2.s = s.s := by
  cases src <;> simp [Source.load]
@[simp] theorem sourceLoad_pc (src : Source) (s : State) :
    (src.load s).2.pc = s.pc := by
  cases src <;> simp [Source.load]
@[simp] theorem sourceLoad_p (src : Source) (s : State) : (src.load s).2.p = s.p := by
  cases src <;> simp [Source.load]
@[simp] theorem sourceLoad_nmiPending (src : Source) (s : State) :
    (src.load s).2.nmiPending = s.nmiPending := by
  cases src <;> simp [Source.load]
@[simp] theorem sourceLoad_irqWindow (src : Source) (s : State) :
    (src.load s).2.irqWindow = s.irqWindow := by
  cases src <;> simp [Source.load]
@[simp] theorem sourceLoad_mem (src : Source) (s : State) :
    (src.load s).2.mem = s.mem := by
  cases src <;> simp [Source.load]
@[simp] theorem sourceLoad_platform (src : Source) (s : State) :
    (src.load s).2.platform = s.platform := by
  cases src <;> simp [Source.load]
@[simp] theorem sourceLoad_inputs (src : Source) (s : State) :
    (src.load s).2.inputs = s.inputs := by
  cases src <;> simp [Source.load]
@[simp] theorem sourceLoad_byteAt (src : Source) (s : State) (b : Word) : (src.load s).2.byteAt b = s.byteAt b := by
  simp [State.byteAt]

@[simp] theorem pull_a (s : State) : (s.pull).2.a = s.a := by simp [State.pull]
@[simp] theorem pull_x (s : State) : (s.pull).2.x = s.x := by simp [State.pull]
@[simp] theorem pull_y (s : State) : (s.pull).2.y = s.y := by simp [State.pull]
@[simp] theorem pull_pc (s : State) : (s.pull).2.pc = s.pc := by simp [State.pull]
@[simp] theorem pull_p (s : State) : (s.pull).2.p = s.p := by simp [State.pull]
@[simp] theorem pull_nmiPending (s : State) : (s.pull).2.nmiPending = s.nmiPending := by simp [State.pull]
@[simp] theorem pull_irqWindow (s : State) : (s.pull).2.irqWindow = s.irqWindow := by simp [State.pull]
@[simp] theorem pull_mem (s : State) : (s.pull).2.mem = s.mem := by simp [State.pull]
@[simp] theorem pull_platform (s : State) : (s.pull).2.platform = s.platform := by simp [State.pull]
@[simp] theorem pull_inputs (s : State) : (s.pull).2.inputs = s.inputs := by simp [State.pull]
@[simp] theorem pull_byteAt (s : State) (b : Word) : (s.pull).2.byteAt b = s.byteAt b := by
  simp [State.byteAt]

@[simp] theorem pull16_a (s : State) : (s.pull16).2.a = s.a := by simp [State.pull16]
@[simp] theorem pull16_x (s : State) : (s.pull16).2.x = s.x := by simp [State.pull16]
@[simp] theorem pull16_y (s : State) : (s.pull16).2.y = s.y := by simp [State.pull16]
@[simp] theorem pull16_pc (s : State) : (s.pull16).2.pc = s.pc := by simp [State.pull16]
@[simp] theorem pull16_p (s : State) : (s.pull16).2.p = s.p := by simp [State.pull16]
@[simp] theorem pull16_nmiPending (s : State) : (s.pull16).2.nmiPending = s.nmiPending := by simp [State.pull16]
@[simp] theorem pull16_irqWindow (s : State) : (s.pull16).2.irqWindow = s.irqWindow := by simp [State.pull16]
@[simp] theorem pull16_mem (s : State) : (s.pull16).2.mem = s.mem := by simp [State.pull16]
@[simp] theorem pull16_platform (s : State) : (s.pull16).2.platform = s.platform := by simp [State.pull16]
@[simp] theorem pull16_inputs (s : State) : (s.pull16).2.inputs = s.inputs := by simp [State.pull16]
@[simp] theorem pull16_byteAt (s : State) (b : Word) : (s.pull16).2.byteAt b = s.byteAt b := by
  simp [State.byteAt]

@[simp] theorem pull_s (s : State) : s.pull.2.s = s.s + 1 := by simp [State.pull]

@[simp] theorem pull16_s (s : State) : s.pull16.2.s = s.s + 2 := by
  simp only [State.pull16, pull_s, BitVec.add_assoc]; rfl

/-! ### Writes keep all but memory and the device log -/

@[simp] theorem busWrite_a (s : State) (w : Word) (v : Byte) :
    (s.busWrite w v).a = s.a := by
  unfold State.busWrite; split <;> rfl
@[simp] theorem busWrite_x (s : State) (w : Word) (v : Byte) :
    (s.busWrite w v).x = s.x := by
  unfold State.busWrite; split <;> rfl
@[simp] theorem busWrite_y (s : State) (w : Word) (v : Byte) :
    (s.busWrite w v).y = s.y := by
  unfold State.busWrite; split <;> rfl
@[simp] theorem busWrite_s (s : State) (w : Word) (v : Byte) :
    (s.busWrite w v).s = s.s := by
  unfold State.busWrite; split <;> rfl
@[simp] theorem busWrite_pc (s : State) (w : Word) (v : Byte) :
    (s.busWrite w v).pc = s.pc := by
  unfold State.busWrite; split <;> rfl
@[simp] theorem busWrite_p (s : State) (w : Word) (v : Byte) :
    (s.busWrite w v).p = s.p := by
  unfold State.busWrite; split <;> rfl
@[simp] theorem busWrite_nmiPending (s : State) (w : Word) (v : Byte) :
    (s.busWrite w v).nmiPending = s.nmiPending := by
  unfold State.busWrite; split <;> rfl
@[simp] theorem busWrite_irqWindow (s : State) (w : Word) (v : Byte) :
    (s.busWrite w v).irqWindow = s.irqWindow := by
  unfold State.busWrite; split <;> rfl
@[simp] theorem busWrite_platform (s : State) (w : Word) (v : Byte) :
    (s.busWrite w v).platform = s.platform := by
  unfold State.busWrite; split <;> rfl
@[simp] theorem busWrite_inputs (s : State) (w : Word) (v : Byte) :
    (s.busWrite w v).inputs = s.inputs := by
  unfold State.busWrite; split <;> rfl
@[simp] theorem busWrite_answers (s : State) (w : Word) (v : Byte) :
    (s.busWrite w v).answers = s.answers := by
  unfold State.busWrite; split <;> rfl
@[simp] theorem busWrite_freeCount (s : State) (w : Word) (v : Byte) :
    (s.busWrite w v).freeCount = s.freeCount := by
  unfold State.busWrite; split <;> rfl

@[simp] theorem push_a (s : State) (v : Byte) : (s.push v).a = s.a := by simp [State.push]
@[simp] theorem push_x (s : State) (v : Byte) : (s.push v).x = s.x := by simp [State.push]
@[simp] theorem push_y (s : State) (v : Byte) : (s.push v).y = s.y := by simp [State.push]
@[simp] theorem push_pc (s : State) (v : Byte) : (s.push v).pc = s.pc := by simp [State.push]
@[simp] theorem push_p (s : State) (v : Byte) : (s.push v).p = s.p := by simp [State.push]
@[simp] theorem push_nmiPending (s : State) (v : Byte) : (s.push v).nmiPending = s.nmiPending := by simp [State.push]
@[simp] theorem push_irqWindow (s : State) (v : Byte) : (s.push v).irqWindow = s.irqWindow := by simp [State.push]
@[simp] theorem push_platform (s : State) (v : Byte) : (s.push v).platform = s.platform := by simp [State.push]
@[simp] theorem push_inputs (s : State) (v : Byte) : (s.push v).inputs = s.inputs := by simp [State.push]
@[simp] theorem push_answers (s : State) (v : Byte) : (s.push v).answers = s.answers := by simp [State.push]
@[simp] theorem push_freeCount (s : State) (v : Byte) : (s.push v).freeCount = s.freeCount := by simp [State.push]

@[simp] theorem push16_a (s : State) (w : Word) : (s.push16 w).a = s.a := by simp [State.push16]
@[simp] theorem push16_x (s : State) (w : Word) : (s.push16 w).x = s.x := by simp [State.push16]
@[simp] theorem push16_y (s : State) (w : Word) : (s.push16 w).y = s.y := by simp [State.push16]
@[simp] theorem push16_pc (s : State) (w : Word) : (s.push16 w).pc = s.pc := by simp [State.push16]
@[simp] theorem push16_p (s : State) (w : Word) : (s.push16 w).p = s.p := by simp [State.push16]
@[simp] theorem push16_nmiPending (s : State) (w : Word) :
    (s.push16 w).nmiPending = s.nmiPending := by simp [State.push16]
@[simp] theorem push16_irqWindow (s : State) (w : Word) : (s.push16 w).irqWindow = s.irqWindow := by simp [State.push16]
@[simp] theorem push16_platform (s : State) (w : Word) : (s.push16 w).platform = s.platform := by simp [State.push16]
@[simp] theorem push16_inputs (s : State) (w : Word) : (s.push16 w).inputs = s.inputs := by simp [State.push16]
@[simp] theorem push16_answers (s : State) (w : Word) : (s.push16 w).answers = s.answers := by simp [State.push16]
@[simp] theorem push16_freeCount (s : State) (w : Word) : (s.push16 w).freeCount = s.freeCount := by simp [State.push16]

@[simp] theorem push_s (s : State) (v : Byte) : (s.push v).s = s.s - 1 := rfl

@[simp] theorem push16_s (s : State) (w : Word) : (s.push16 w).s = s.s - 2 := by
  simp only [State.push16, push_s]; bv_omega

/-! ### What a read gives and what a write leaves -/

/-- A read of RAM or ROM gives the memory's byte and changes nothing. -/
theorem busRead_of_isMemory {s : State} {w : Word} (h : (s.platform.kindAt w).isMemory = true) :
    s.busRead w = (s.byteAt w, s) := by
  unfold State.busRead
  split
  · rfl
  · rfl
  · next hk => simp [hk, RegionKind.isMemory] at h
  · next hk => simp [hk, RegionKind.isMemory] at h

/-- Two reads of RAM or ROM give the two bytes and change nothing. -/
theorem readPair_of_isMemory {s : State} {lo hi : Word} (hlo : (s.platform.kindAt lo).isMemory = true)
    (hhi : (s.platform.kindAt hi).isMemory = true) :
    s.readPair lo hi = (joinBytes (s.byteAt hi) (s.byteAt lo), s) := by
  simp [State.readPair, busRead_of_isMemory hlo, busRead_of_isMemory hhi]

/-- Every byte after a write: the byte written at a RAM address, every other byte as it was. -/
theorem busWrite_byteAt (s : State) (w : Word) (v : Byte) (b : Word) :
    (s.busWrite w v).byteAt b = if b = w ∧ s.platform.kindAt w = .ram then v else s.byteAt b := by
  unfold State.busWrite State.byteAt
  have hinj : b.toNat = w.toNat ↔ b = w := BitVec.toNat_inj
  split
  · next hk => simp only [read_write, hinj, hk, and_true]
  · next hk => simp [hk]
  · next hk => simp [hk]
  · next hk => simp [hk]

/-- The device log after a write. -/
theorem busWrite_busLog (s : State) (w : Word) (v : Byte) :
    (s.busWrite w v).busLog = if s.platform.kindAt w = .device then .write w v :: s.busLog else s.busLog := by
  unfold State.busWrite
  split <;> next hk => simp [hk]

/-- A write keeps the memory's canonical form. -/
theorem busWrite_wf {s : State} (w : Word) (v : Byte) (h : Memory.wf s.mem = true) :
    Memory.wf (s.busWrite w v).mem = true := by
  unfold State.busWrite
  split
  · exact write_wf v w.isLt h
  · exact h
  · exact h
  · exact h

theorem push_byteAt (s : State) (v : Byte) (b : Word) :
    (s.push v).byteAt b = if b = stackAddr s.s ∧ s.platform.kindAt (stackAddr s.s) = .ram then v else s.byteAt b := by
  simp [State.push, busWrite_byteAt]

theorem push_wf {s : State} (v : Byte) (h : Memory.wf s.mem = true) : Memory.wf (s.push v).mem = true := by
  simpa [State.push] using busWrite_wf (stackAddr s.s) v h

theorem push16_wf {s : State} (w : Word) (h : Memory.wf s.mem = true) : Memory.wf (s.push16 w).mem = true :=
  push_wf _ (push_wf _ h)

/-- Every byte after the push of a 16-bit value: its high byte at S, its low byte one below (20_memory.md R53, R58). -/
theorem push16_byteAt (s : State) (w : Word) (b : Word) :
    (s.push16 w).byteAt b =
      if b = stackAddr s.s ∧ s.platform.kindAt (stackAddr s.s) = .ram then hiByte w
      else if b = stackAddr (s.s - 1) ∧ s.platform.kindAt (stackAddr (s.s - 1)) = .ram then loByte w
      else s.byteAt b := by
  simp only [State.push16, push_byteAt, push_s, push_platform]
  by_cases h1 : b = stackAddr s.s
  · subst h1
    have h : ¬stackAddr s.s = stackAddr (s.s - 1) := fun h => byte_ne_sub_one s.s ((stackAddr_eq_iff _ _).1 h)
    simp only [h, false_and, if_false, true_and]
  · simp only [h1, false_and, if_false]

/-- A pull over RAM or ROM: the byte above S, S one up, nothing else changed (20_memory.md R58). -/
theorem pull_of_isMemory {s : State} (h : (s.platform.kindAt (stackAddr (s.s + 1))).isMemory = true) :
    s.pull = (s.byteAt (stackAddr (s.s + 1)), s.setS (s.s + 1)) :=
  busRead_of_isMemory (s := s.setS (s.s + 1)) h

/-- A 16-bit pull over RAM or ROM: low byte first (46_jump_subroutine.md R172). -/
theorem pull16_of_isMemory {s : State} (h1 : (s.platform.kindAt (stackAddr (s.s + 1))).isMemory = true)
    (h2 : (s.platform.kindAt (stackAddr (s.s + 2))).isMemory = true) :
    s.pull16 = (joinBytes (s.byteAt (stackAddr (s.s + 2))) (s.byteAt (stackAddr (s.s + 1))), s.setS (s.s + 2)) := by
  have e : s.s + 1 + 1 = s.s + 2 := by bv_omega
  have h2' : ((s.setS (s.s + 1)).platform.kindAt (stackAddr ((s.setS (s.s + 1)).s + 1))).isMemory = true := by
    simpa only [setS_s, setS_platform, e] using h2
  simp only [State.pull16, pull_of_isMemory h1, pull_of_isMemory h2', setS_s, setS_byteAt, e]
  rfl

/-- A read does not look at the flags. -/
theorem busRead_setP (s : State) (p : Flags) (w : Word) :
    (s.setP p).busRead w = ((s.busRead w).1, (s.busRead w).2.setP p) := by
  simp only [State.busRead, setP_platform, setP_byteAt, setP_answers, setP_busLog, setP_freeCount]
  cases s.platform.kindAt w with
  | device => cases s.answers <;> rfl
  | _ => rfl

/-- A 16-bit read does not look at the flags. -/
theorem read16_setP (s : State) (p : Flags) (w : Word) :
    (s.setP p).read16 w = ((s.read16 w).1, (s.read16 w).2.setP p) := by
  simp only [State.read16, State.readPair, busRead_setP]

/-- What a read gives, and what it does to the bus, depend on memory, the platform and the bus fields alone. -/
theorem busRead_congr {s t : State} (w : Word) (hm : t.mem = s.mem) (hp : t.platform = s.platform)
    (ha : t.answers = s.answers) (hb : t.busLog = s.busLog) (hf : t.freeCount = s.freeCount) :
    (t.busRead w).1 = (s.busRead w).1 ∧ (t.busRead w).2.answers = (s.busRead w).2.answers ∧
      (t.busRead w).2.busLog = (s.busRead w).2.busLog ∧ (t.busRead w).2.freeCount = (s.busRead w).2.freeCount := by
  simp only [State.busRead, State.byteAt, hp, hm, ha, hb, hf]
  cases s.platform.kindAt w with
  | device => cases s.answers <;> simp
  | _ => simp [ha, hb, hf]

/-- The same of a 16-bit read. -/
theorem readPair_congr {s t : State} (lo hi : Word) (hm : t.mem = s.mem) (hp : t.platform = s.platform)
    (ha : t.answers = s.answers) (hb : t.busLog = s.busLog) (hf : t.freeCount = s.freeCount) :
    (t.readPair lo hi).1 = (s.readPair lo hi).1 ∧ (t.readPair lo hi).2.answers = (s.readPair lo hi).2.answers ∧
      (t.readPair lo hi).2.busLog = (s.readPair lo hi).2.busLog ∧
      (t.readPair lo hi).2.freeCount = (s.readPair lo hi).2.freeCount := by
  obtain ⟨h1, h2, h3, h4⟩ := busRead_congr lo hm hp ha hb hf
  obtain ⟨k1, k2, k3, k4⟩ := busRead_congr (s := (s.busRead lo).2) (t := (t.busRead lo).2) hi (by simp [hm]) (by simp [hp])
    h2 h3 h4
  exact ⟨by simp only [State.readPair, h1, k1], k2, k3, k4⟩

/-! ### The exception operations -/

@[simp] theorem jumpVector_a (s : State) (w : Word) : (s.jumpVector w).a = s.a := by simp [State.jumpVector]
@[simp] theorem jumpVector_x (s : State) (w : Word) : (s.jumpVector w).x = s.x := by simp [State.jumpVector]
@[simp] theorem jumpVector_y (s : State) (w : Word) : (s.jumpVector w).y = s.y := by simp [State.jumpVector]
@[simp] theorem jumpVector_s (s : State) (w : Word) : (s.jumpVector w).s = s.s := by simp [State.jumpVector]
@[simp] theorem jumpVector_p (s : State) (w : Word) : (s.jumpVector w).p = s.p := by simp [State.jumpVector]
@[simp] theorem jumpVector_nmiPending (s : State) (w : Word) :
    (s.jumpVector w).nmiPending = s.nmiPending := by simp [State.jumpVector]
@[simp] theorem jumpVector_irqWindow (s : State) (w : Word) :
    (s.jumpVector w).irqWindow = s.irqWindow := by simp [State.jumpVector]
@[simp] theorem jumpVector_platform (s : State) (w : Word) :
    (s.jumpVector w).platform = s.platform := by simp [State.jumpVector]
@[simp] theorem jumpVector_inputs (s : State) (w : Word) :
    (s.jumpVector w).inputs = s.inputs := by simp [State.jumpVector]
@[simp] theorem jumpVector_mem (s : State) (w : Word) : (s.jumpVector w).mem = s.mem := by simp [State.jumpVector]

/-- The shape of Interrupt(vector, b, ret): registers, flags and what is left of the state, all but memory and the bus. -/
theorem interrupt_registers (s : State) (vector : Word) (b : Bool) (ret : Word) :
    let t := s.interrupt vector b ret
    t.a = s.a ∧ t.x = s.x ∧ t.y = s.y ∧ t.s = s.s - 3 ∧ t.p = entryFlags s.platform s.p ∧ t.nmiPending = s.nmiPending ∧
      t.irqWindow = s.irqWindow ∧ t.platform = s.platform ∧ t.inputs = s.inputs := by
  simp only [State.interrupt, jumpVector_a, jumpVector_x, jumpVector_y, jumpVector_s, jumpVector_p, jumpVector_nmiPending,
    jumpVector_irqWindow, jumpVector_platform, jumpVector_inputs]
  simp
  bv_omega

theorem interrupt_wf {s : State} (vector : Word) (b : Bool) (ret : Word) (h : Memory.wf s.mem = true) :
    Memory.wf (s.interrupt vector b ret).mem = true := by
  simpa [State.interrupt] using push_wf (packP b s.p) (push16_wf ret h)

/-- The shape of the Reset sequence: nothing is written; S goes down by three. -/
theorem resetSequence_registers (s : State) :
    let t := s.resetSequence
    t.a = s.a ∧ t.x = s.x ∧ t.y = s.y ∧ t.s = s.s - 3 ∧ t.p = entryFlags s.platform s.p ∧ t.nmiPending = false ∧
      t.mem = s.mem ∧ t.platform = s.platform ∧ t.inputs = s.inputs := by
  simp [State.resetSequence]

/-- The shape of a return from an exception. -/
theorem returnFromInterrupt_registers (s : State) :
    let t := s.returnFromInterrupt
    t.a = s.a ∧ t.x = s.x ∧ t.y = s.y ∧ t.s = s.s + 3 ∧ t.p = unpackP s.pull.1 ∧ t.mem = s.mem ∧
      t.platform = s.platform ∧ t.inputs = s.inputs := by
  simp only [State.returnFromInterrupt]
  simp [BitVec.add_assoc]

/-! ### Stores and read-modify-writes -/

@[simp] theorem store_a (m : MemMode) (v : Byte) (s : State) : (m.store v s).a = s.a := by simp [MemMode.store]
@[simp] theorem store_x (m : MemMode) (v : Byte) (s : State) : (m.store v s).x = s.x := by simp [MemMode.store]
@[simp] theorem store_y (m : MemMode) (v : Byte) (s : State) : (m.store v s).y = s.y := by simp [MemMode.store]
@[simp] theorem store_s (m : MemMode) (v : Byte) (s : State) : (m.store v s).s = s.s := by simp [MemMode.store]
@[simp] theorem store_pc (m : MemMode) (v : Byte) (s : State) : (m.store v s).pc = s.pc := by simp [MemMode.store]
@[simp] theorem store_p (m : MemMode) (v : Byte) (s : State) : (m.store v s).p = s.p := by simp [MemMode.store]
@[simp] theorem store_nmiPending (m : MemMode) (v : Byte) (s : State) :
    (m.store v s).nmiPending = s.nmiPending := by simp [MemMode.store]
@[simp] theorem store_irqWindow (m : MemMode) (v : Byte) (s : State) :
    (m.store v s).irqWindow = s.irqWindow := by simp [MemMode.store]
@[simp] theorem store_platform (m : MemMode) (v : Byte) (s : State) :
    (m.store v s).platform = s.platform := by simp [MemMode.store]
@[simp] theorem store_inputs (m : MemMode) (v : Byte) (s : State) :
    (m.store v s).inputs = s.inputs := by simp [MemMode.store]

theorem store_wf {s : State} (m : MemMode) (v : Byte) (h : Memory.wf s.mem = true) : Memory.wf (m.store v s).mem = true :=
  busWrite_wf _ v (by simpa using h)

/-- Every byte after a store: the value at EA if EA is RAM, every other byte as it was. -/
theorem store_byteAt (m : MemMode) (v : Byte) (s : State) (b : Word) :
    (m.store v s).byteAt b =
      if b = (m.address s).1 ∧ s.platform.kindAt (m.address s).1 = .ram then v else s.byteAt b := by
  simp [MemMode.store, busWrite_byteAt]

section modify

variable (m : MemMode) (f : Byte → Flags → Byte × Flags) (s : State)

@[simp] theorem modify_a : (m.modify f s).a = s.a := by simp [MemMode.modify]
@[simp] theorem modify_x : (m.modify f s).x = s.x := by simp [MemMode.modify]
@[simp] theorem modify_y : (m.modify f s).y = s.y := by simp [MemMode.modify]
@[simp] theorem modify_s : (m.modify f s).s = s.s := by simp [MemMode.modify]
@[simp] theorem modify_pc : (m.modify f s).pc = s.pc := by simp [MemMode.modify]
@[simp] theorem modify_nmiPending : (m.modify f s).nmiPending = s.nmiPending := by simp [MemMode.modify]
@[simp] theorem modify_irqWindow : (m.modify f s).irqWindow = s.irqWindow := by simp [MemMode.modify]
@[simp] theorem modify_platform : (m.modify f s).platform = s.platform := by simp [MemMode.modify]
@[simp] theorem modify_inputs : (m.modify f s).inputs = s.inputs := by simp [MemMode.modify]

theorem modify_p : (m.modify f s).p = (f (m.load s).1 s.p).2 := by simp [MemMode.modify, MemMode.load]

/-- Every byte after a read-modify-write: the new value at EA if EA is RAM, every other byte as it was. -/
theorem modify_byteAt (b : Word) :
    (m.modify f s).byteAt b =
      if b = (m.address s).1 ∧ s.platform.kindAt (m.address s).1 = .ram then (f (m.load s).1 s.p).1 else s.byteAt b := by
  simp [MemMode.modify, MemMode.load, busWrite_byteAt]

theorem modify_wf (h : Memory.wf s.mem = true) : Memory.wf (m.modify f s).mem = true := by
  simpa [MemMode.modify] using
    busWrite_wf (s := ((m.address s).2.busRead (m.address s).1).2) (m.address s).1
      (f ((m.address s).2.busRead (m.address s).1).1 s.p).1 (by simpa using h)

end modify

end Sys2Proof.Machine
end

