-- ==== Sys2Proof/Laws/PerInstr.lean ====
section
/-! SUPPORT. The per-instruction family FormLaw: what holds of each instruction as syntax. Its mnemonic has its address mode,
its encoding is as long as its mode says, and its first byte selects a row of the opcode map (30_encoding.md R81, R82, R99). -/

namespace Sys2Proof.Laws.FormLaw

open Sys2Proof

/-- The instruction is well formed, its encoding has the length of its address mode, and its opcode byte is a defined one. -/
def Statement (i : Instr) : Prop :=
  i.wellFormed = true ∧ (encode i).length = i.length ∧ ∃ op rest f, encode i = op :: rest ∧ formOf op = some f

theorem adcImmediate (v : Byte) : Statement (.adcImmediate v) := ⟨rfl, rfl, _, _, _, rfl, rfl⟩
theorem adcZeroPage (zp : Byte) : Statement (.adcZeroPage zp) := ⟨rfl, rfl, _, _, _, rfl, rfl⟩
theorem adcZeroPageX (zp : Byte) : Statement (.adcZeroPageX zp) := ⟨rfl, rfl, _, _, _, rfl, rfl⟩
theorem adcAbsolute (addr : Word) : Statement (.adcAbsolute addr) := ⟨rfl, rfl, _, _, _, rfl, rfl⟩
theorem adcAbsoluteX (addr : Word) : Statement (.adcAbsoluteX addr) := ⟨rfl, rfl, _, _, _, rfl, rfl⟩
theorem adcAbsoluteY (addr : Word) : Statement (.adcAbsoluteY addr) := ⟨rfl, rfl, _, _, _, rfl, rfl⟩
theorem adcIndirectX (zp : Byte) : Statement (.adcIndirectX zp) := ⟨rfl, rfl, _, _, _, rfl, rfl⟩
theorem adcIndirectY (zp : Byte) : Statement (.adcIndirectY zp) := ⟨rfl, rfl, _, _, _, rfl, rfl⟩
theorem sbcImmediate (v : Byte) : Statement (.sbcImmediate v) := ⟨rfl, rfl, _, _, _, rfl, rfl⟩
theorem sbcZeroPage (zp : Byte) : Statement (.sbcZeroPage zp) := ⟨rfl, rfl, _, _, _, rfl, rfl⟩
theorem sbcZeroPageX (zp : Byte) : Statement (.sbcZeroPageX zp) := ⟨rfl, rfl, _, _, _, rfl, rfl⟩
theorem sbcAbsolute (addr : Word) : Statement (.sbcAbsolute addr) := ⟨rfl, rfl, _, _, _, rfl, rfl⟩
theorem sbcAbsoluteX (addr : Word) : Statement (.sbcAbsoluteX addr) := ⟨rfl, rfl, _, _, _, rfl, rfl⟩
theorem sbcAbsoluteY (addr : Word) : Statement (.sbcAbsoluteY addr) := ⟨rfl, rfl, _, _, _, rfl, rfl⟩
theorem sbcIndirectX (zp : Byte) : Statement (.sbcIndirectX zp) := ⟨rfl, rfl, _, _, _, rfl, rfl⟩
theorem sbcIndirectY (zp : Byte) : Statement (.sbcIndirectY zp) := ⟨rfl, rfl, _, _, _, rfl, rfl⟩
theorem cmpImmediate (v : Byte) : Statement (.cmpImmediate v) := ⟨rfl, rfl, _, _, _, rfl, rfl⟩
theorem cmpZeroPage (zp : Byte) : Statement (.cmpZeroPage zp) := ⟨rfl, rfl, _, _, _, rfl, rfl⟩
theorem cmpZeroPageX (zp : Byte) : Statement (.cmpZeroPageX zp) := ⟨rfl, rfl, _, _, _, rfl, rfl⟩
theorem cmpAbsolute (addr : Word) : Statement (.cmpAbsolute addr) := ⟨rfl, rfl, _, _, _, rfl, rfl⟩
theorem cmpAbsoluteX (addr : Word) : Statement (.cmpAbsoluteX addr) := ⟨rfl, rfl, _, _, _, rfl, rfl⟩
theorem cmpAbsoluteY (addr : Word) : Statement (.cmpAbsoluteY addr) := ⟨rfl, rfl, _, _, _, rfl, rfl⟩
theorem cmpIndirectX (zp : Byte) : Statement (.cmpIndirectX zp) := ⟨rfl, rfl, _, _, _, rfl, rfl⟩
theorem cmpIndirectY (zp : Byte) : Statement (.cmpIndirectY zp) := ⟨rfl, rfl, _, _, _, rfl, rfl⟩
theorem cpxImmediate (v : Byte) : Statement (.cpxImmediate v) := ⟨rfl, rfl, _, _, _, rfl, rfl⟩
theorem cpxZeroPage (zp : Byte) : Statement (.cpxZeroPage zp) := ⟨rfl, rfl, _, _, _, rfl, rfl⟩
theorem cpxAbsolute (addr : Word) : Statement (.cpxAbsolute addr) := ⟨rfl, rfl, _, _, _, rfl, rfl⟩
theorem cpyImmediate (v : Byte) : Statement (.cpyImmediate v) := ⟨rfl, rfl, _, _, _, rfl, rfl⟩
theorem cpyZeroPage (zp : Byte) : Statement (.cpyZeroPage zp) := ⟨rfl, rfl, _, _, _, rfl, rfl⟩
theorem cpyAbsolute (addr : Word) : Statement (.cpyAbsolute addr) := ⟨rfl, rfl, _, _, _, rfl, rfl⟩
theorem andImmediate (v : Byte) : Statement (.andImmediate v) := ⟨rfl, rfl, _, _, _, rfl, rfl⟩
theorem andZeroPage (zp : Byte) : Statement (.andZeroPage zp) := ⟨rfl, rfl, _, _, _, rfl, rfl⟩
theorem andZeroPageX (zp : Byte) : Statement (.andZeroPageX zp) := ⟨rfl, rfl, _, _, _, rfl, rfl⟩
theorem andAbsolute (addr : Word) : Statement (.andAbsolute addr) := ⟨rfl, rfl, _, _, _, rfl, rfl⟩
theorem andAbsoluteX (addr : Word) : Statement (.andAbsoluteX addr) := ⟨rfl, rfl, _, _, _, rfl, rfl⟩
theorem andAbsoluteY (addr : Word) : Statement (.andAbsoluteY addr) := ⟨rfl, rfl, _, _, _, rfl, rfl⟩
theorem andIndirectX (zp : Byte) : Statement (.andIndirectX zp) := ⟨rfl, rfl, _, _, _, rfl, rfl⟩
theorem andIndirectY (zp : Byte) : Statement (.andIndirectY zp) := ⟨rfl, rfl, _, _, _, rfl, rfl⟩
theorem eorImmediate (v : Byte) : Statement (.eorImmediate v) := ⟨rfl, rfl, _, _, _, rfl, rfl⟩
theorem eorZeroPage (zp : Byte) : Statement (.eorZeroPage zp) := ⟨rfl, rfl, _, _, _, rfl, rfl⟩
theorem eorZeroPageX (zp : Byte) : Statement (.eorZeroPageX zp) := ⟨rfl, rfl, _, _, _, rfl, rfl⟩
theorem eorAbsolute (addr : Word) : Statement (.eorAbsolute addr) := ⟨rfl, rfl, _, _, _, rfl, rfl⟩
theorem eorAbsoluteX (addr : Word) : Statement (.eorAbsoluteX addr) := ⟨rfl, rfl, _, _, _, rfl, rfl⟩
theorem eorAbsoluteY (addr : Word) : Statement (.eorAbsoluteY addr) := ⟨rfl, rfl, _, _, _, rfl, rfl⟩
theorem eorIndirectX (zp : Byte) : Statement (.eorIndirectX zp) := ⟨rfl, rfl, _, _, _, rfl, rfl⟩
theorem eorIndirectY (zp : Byte) : Statement (.eorIndirectY zp) := ⟨rfl, rfl, _, _, _, rfl, rfl⟩
theorem oraImmediate (v : Byte) : Statement (.oraImmediate v) := ⟨rfl, rfl, _, _, _, rfl, rfl⟩
theorem oraZeroPage (zp : Byte) : Statement (.oraZeroPage zp) := ⟨rfl, rfl, _, _, _, rfl, rfl⟩
theorem oraZeroPageX (zp : Byte) : Statement (.oraZeroPageX zp) := ⟨rfl, rfl, _, _, _, rfl, rfl⟩
theorem oraAbsolute (addr : Word) : Statement (.oraAbsolute addr) := ⟨rfl, rfl, _, _, _, rfl, rfl⟩
theorem oraAbsoluteX (addr : Word) : Statement (.oraAbsoluteX addr) := ⟨rfl, rfl, _, _, _, rfl, rfl⟩
theorem oraAbsoluteY (addr : Word) : Statement (.oraAbsoluteY addr) := ⟨rfl, rfl, _, _, _, rfl, rfl⟩
theorem oraIndirectX (zp : Byte) : Statement (.oraIndirectX zp) := ⟨rfl, rfl, _, _, _, rfl, rfl⟩
theorem oraIndirectY (zp : Byte) : Statement (.oraIndirectY zp) := ⟨rfl, rfl, _, _, _, rfl, rfl⟩
theorem bitZeroPage (zp : Byte) : Statement (.bitZeroPage zp) := ⟨rfl, rfl, _, _, _, rfl, rfl⟩
theorem bitAbsolute (addr : Word) : Statement (.bitAbsolute addr) := ⟨rfl, rfl, _, _, _, rfl, rfl⟩
theorem aslZeroPage (zp : Byte) : Statement (.aslZeroPage zp) := ⟨rfl, rfl, _, _, _, rfl, rfl⟩
theorem aslZeroPageX (zp : Byte) : Statement (.aslZeroPageX zp) := ⟨rfl, rfl, _, _, _, rfl, rfl⟩
theorem aslAbsolute (addr : Word) : Statement (.aslAbsolute addr) := ⟨rfl, rfl, _, _, _, rfl, rfl⟩
theorem aslAbsoluteX (addr : Word) : Statement (.aslAbsoluteX addr) := ⟨rfl, rfl, _, _, _, rfl, rfl⟩
theorem aslAccumulator : Statement .aslAccumulator := ⟨rfl, rfl, _, _, _, rfl, rfl⟩
theorem lsrZeroPage (zp : Byte) : Statement (.lsrZeroPage zp) := ⟨rfl, rfl, _, _, _, rfl, rfl⟩
theorem lsrZeroPageX (zp : Byte) : Statement (.lsrZeroPageX zp) := ⟨rfl, rfl, _, _, _, rfl, rfl⟩
theorem lsrAbsolute (addr : Word) : Statement (.lsrAbsolute addr) := ⟨rfl, rfl, _, _, _, rfl, rfl⟩
theorem lsrAbsoluteX (addr : Word) : Statement (.lsrAbsoluteX addr) := ⟨rfl, rfl, _, _, _, rfl, rfl⟩
theorem lsrAccumulator : Statement .lsrAccumulator := ⟨rfl, rfl, _, _, _, rfl, rfl⟩
theorem rolZeroPage (zp : Byte) : Statement (.rolZeroPage zp) := ⟨rfl, rfl, _, _, _, rfl, rfl⟩
theorem rolZeroPageX (zp : Byte) : Statement (.rolZeroPageX zp) := ⟨rfl, rfl, _, _, _, rfl, rfl⟩
theorem rolAbsolute (addr : Word) : Statement (.rolAbsolute addr) := ⟨rfl, rfl, _, _, _, rfl, rfl⟩
theorem rolAbsoluteX (addr : Word) : Statement (.rolAbsoluteX addr) := ⟨rfl, rfl, _, _, _, rfl, rfl⟩
theorem rolAccumulator : Statement .rolAccumulator := ⟨rfl, rfl, _, _, _, rfl, rfl⟩
theorem rorZeroPage (zp : Byte) : Statement (.rorZeroPage zp) := ⟨rfl, rfl, _, _, _, rfl, rfl⟩
theorem rorZeroPageX (zp : Byte) : Statement (.rorZeroPageX zp) := ⟨rfl, rfl, _, _, _, rfl, rfl⟩
theorem rorAbsolute (addr : Word) : Statement (.rorAbsolute addr) := ⟨rfl, rfl, _, _, _, rfl, rfl⟩
theorem rorAbsoluteX (addr : Word) : Statement (.rorAbsoluteX addr) := ⟨rfl, rfl, _, _, _, rfl, rfl⟩
theorem rorAccumulator : Statement .rorAccumulator := ⟨rfl, rfl, _, _, _, rfl, rfl⟩
theorem bcc (disp : Byte) : Statement (.bcc disp) := ⟨rfl, rfl, _, _, _, rfl, rfl⟩
theorem bcs (disp : Byte) : Statement (.bcs disp) := ⟨rfl, rfl, _, _, _, rfl, rfl⟩
theorem beq (disp : Byte) : Statement (.beq disp) := ⟨rfl, rfl, _, _, _, rfl, rfl⟩
theorem bmi (disp : Byte) : Statement (.bmi disp) := ⟨rfl, rfl, _, _, _, rfl, rfl⟩
theorem bne (disp : Byte) : Statement (.bne disp) := ⟨rfl, rfl, _, _, _, rfl, rfl⟩
theorem bpl (disp : Byte) : Statement (.bpl disp) := ⟨rfl, rfl, _, _, _, rfl, rfl⟩
theorem bvc (disp : Byte) : Statement (.bvc disp) := ⟨rfl, rfl, _, _, _, rfl, rfl⟩
theorem bvs (disp : Byte) : Statement (.bvs disp) := ⟨rfl, rfl, _, _, _, rfl, rfl⟩
theorem clc : Statement .clc := ⟨rfl, rfl, _, _, _, rfl, rfl⟩
theorem cld : Statement .cld := ⟨rfl, rfl, _, _, _, rfl, rfl⟩
theorem cli : Statement .cli := ⟨rfl, rfl, _, _, _, rfl, rfl⟩
theorem clv : Statement .clv := ⟨rfl, rfl, _, _, _, rfl, rfl⟩
theorem sec : Statement .sec := ⟨rfl, rfl, _, _, _, rfl, rfl⟩
theorem sed : Statement .sed := ⟨rfl, rfl, _, _, _, rfl, rfl⟩
theorem sei : Statement .sei := ⟨rfl, rfl, _, _, _, rfl, rfl⟩
theorem decZeroPage (zp : Byte) : Statement (.decZeroPage zp) := ⟨rfl, rfl, _, _, _, rfl, rfl⟩
theorem decZeroPageX (zp : Byte) : Statement (.decZeroPageX zp) := ⟨rfl, rfl, _, _, _, rfl, rfl⟩
theorem decAbsolute (addr : Word) : Statement (.decAbsolute addr) := ⟨rfl, rfl, _, _, _, rfl, rfl⟩
theorem decAbsoluteX (addr : Word) : Statement (.decAbsoluteX addr) := ⟨rfl, rfl, _, _, _, rfl, rfl⟩
theorem dex : Statement .dex := ⟨rfl, rfl, _, _, _, rfl, rfl⟩
theorem dey : Statement .dey := ⟨rfl, rfl, _, _, _, rfl, rfl⟩
theorem incZeroPage (zp : Byte) : Statement (.incZeroPage zp) := ⟨rfl, rfl, _, _, _, rfl, rfl⟩
theorem incZeroPageX (zp : Byte) : Statement (.incZeroPageX zp) := ⟨rfl, rfl, _, _, _, rfl, rfl⟩
theorem incAbsolute (addr : Word) : Statement (.incAbsolute addr) := ⟨rfl, rfl, _, _, _, rfl, rfl⟩
theorem incAbsoluteX (addr : Word) : Statement (.incAbsoluteX addr) := ⟨rfl, rfl, _, _, _, rfl, rfl⟩
theorem inx : Statement .inx := ⟨rfl, rfl, _, _, _, rfl, rfl⟩
theorem iny : Statement .iny := ⟨rfl, rfl, _, _, _, rfl, rfl⟩
theorem jmpAbsolute (addr : Word) : Statement (.jmpAbsolute addr) := ⟨rfl, rfl, _, _, _, rfl, rfl⟩
theorem jmpIndirect (ptr : Word) : Statement (.jmpIndirect ptr) := ⟨rfl, rfl, _, _, _, rfl, rfl⟩
theorem jsr (addr : Word) : Statement (.jsr addr) := ⟨rfl, rfl, _, _, _, rfl, rfl⟩
theorem rts : Statement .rts := ⟨rfl, rfl, _, _, _, rfl, rfl⟩
theorem ldaImmediate (v : Byte) : Statement (.ldaImmediate v) := ⟨rfl, rfl, _, _, _, rfl, rfl⟩
theorem ldaZeroPage (zp : Byte) : Statement (.ldaZeroPage zp) := ⟨rfl, rfl, _, _, _, rfl, rfl⟩
theorem ldaZeroPageX (zp : Byte) : Statement (.ldaZeroPageX zp) := ⟨rfl, rfl, _, _, _, rfl, rfl⟩
theorem ldaAbsolute (addr : Word) : Statement (.ldaAbsolute addr) := ⟨rfl, rfl, _, _, _, rfl, rfl⟩
theorem ldaAbsoluteX (addr : Word) : Statement (.ldaAbsoluteX addr) := ⟨rfl, rfl, _, _, _, rfl, rfl⟩
theorem ldaAbsoluteY (addr : Word) : Statement (.ldaAbsoluteY addr) := ⟨rfl, rfl, _, _, _, rfl, rfl⟩
theorem ldaIndirectX (zp : Byte) : Statement (.ldaIndirectX zp) := ⟨rfl, rfl, _, _, _, rfl, rfl⟩
theorem ldaIndirectY (zp : Byte) : Statement (.ldaIndirectY zp) := ⟨rfl, rfl, _, _, _, rfl, rfl⟩
theorem ldxImmediate (v : Byte) : Statement (.ldxImmediate v) := ⟨rfl, rfl, _, _, _, rfl, rfl⟩
theorem ldxZeroPage (zp : Byte) : Statement (.ldxZeroPage zp) := ⟨rfl, rfl, _, _, _, rfl, rfl⟩
theorem ldxZeroPageY (zp : Byte) : Statement (.ldxZeroPageY zp) := ⟨rfl, rfl, _, _, _, rfl, rfl⟩
theorem ldxAbsolute (addr : Word) : Statement (.ldxAbsolute addr) := ⟨rfl, rfl, _, _, _, rfl, rfl⟩
theorem ldxAbsoluteY (addr : Word) : Statement (.ldxAbsoluteY addr) := ⟨rfl, rfl, _, _, _, rfl, rfl⟩
theorem ldyImmediate (v : Byte) : Statement (.ldyImmediate v) := ⟨rfl, rfl, _, _, _, rfl, rfl⟩
theorem ldyZeroPage (zp : Byte) : Statement (.ldyZeroPage zp) := ⟨rfl, rfl, _, _, _, rfl, rfl⟩
theorem ldyZeroPageX (zp : Byte) : Statement (.ldyZeroPageX zp) := ⟨rfl, rfl, _, _, _, rfl, rfl⟩
theorem ldyAbsolute (addr : Word) : Statement (.ldyAbsolute addr) := ⟨rfl, rfl, _, _, _, rfl, rfl⟩
theorem ldyAbsoluteX (addr : Word) : Statement (.ldyAbsoluteX addr) := ⟨rfl, rfl, _, _, _, rfl, rfl⟩
theorem staZeroPage (zp : Byte) : Statement (.staZeroPage zp) := ⟨rfl, rfl, _, _, _, rfl, rfl⟩
theorem staZeroPageX (zp : Byte) : Statement (.staZeroPageX zp) := ⟨rfl, rfl, _, _, _, rfl, rfl⟩
theorem staAbsolute (addr : Word) : Statement (.staAbsolute addr) := ⟨rfl, rfl, _, _, _, rfl, rfl⟩
theorem staAbsoluteX (addr : Word) : Statement (.staAbsoluteX addr) := ⟨rfl, rfl, _, _, _, rfl, rfl⟩
theorem staAbsoluteY (addr : Word) : Statement (.staAbsoluteY addr) := ⟨rfl, rfl, _, _, _, rfl, rfl⟩
theorem staIndirectX (zp : Byte) : Statement (.staIndirectX zp) := ⟨rfl, rfl, _, _, _, rfl, rfl⟩
theorem staIndirectY (zp : Byte) : Statement (.staIndirectY zp) := ⟨rfl, rfl, _, _, _, rfl, rfl⟩
theorem stxZeroPage (zp : Byte) : Statement (.stxZeroPage zp) := ⟨rfl, rfl, _, _, _, rfl, rfl⟩
theorem stxZeroPageY (zp : Byte) : Statement (.stxZeroPageY zp) := ⟨rfl, rfl, _, _, _, rfl, rfl⟩
theorem stxAbsolute (addr : Word) : Statement (.stxAbsolute addr) := ⟨rfl, rfl, _, _, _, rfl, rfl⟩
theorem styZeroPage (zp : Byte) : Statement (.styZeroPage zp) := ⟨rfl, rfl, _, _, _, rfl, rfl⟩
theorem styZeroPageX (zp : Byte) : Statement (.styZeroPageX zp) := ⟨rfl, rfl, _, _, _, rfl, rfl⟩
theorem styAbsolute (addr : Word) : Statement (.styAbsolute addr) := ⟨rfl, rfl, _, _, _, rfl, rfl⟩
theorem pha : Statement .pha := ⟨rfl, rfl, _, _, _, rfl, rfl⟩
theorem php : Statement .php := ⟨rfl, rfl, _, _, _, rfl, rfl⟩
theorem pla : Statement .pla := ⟨rfl, rfl, _, _, _, rfl, rfl⟩
theorem plp : Statement .plp := ⟨rfl, rfl, _, _, _, rfl, rfl⟩
theorem tax : Statement .tax := ⟨rfl, rfl, _, _, _, rfl, rfl⟩
theorem tay : Statement .tay := ⟨rfl, rfl, _, _, _, rfl, rfl⟩
theorem tsx : Statement .tsx := ⟨rfl, rfl, _, _, _, rfl, rfl⟩
theorem txa : Statement .txa := ⟨rfl, rfl, _, _, _, rfl, rfl⟩
theorem txs : Statement .txs := ⟨rfl, rfl, _, _, _, rfl, rfl⟩
theorem tya : Statement .tya := ⟨rfl, rfl, _, _, _, rfl, rfl⟩
theorem brk : Statement .brk := ⟨rfl, rfl, _, _, _, rfl, rfl⟩
theorem rti : Statement .rti := ⟨rfl, rfl, _, _, _, rfl, rfl⟩
theorem nop : Statement .nop := ⟨rfl, rfl, _, _, _, rfl, rfl⟩

end Sys2Proof.Laws.FormLaw
end

