-- ==== Sys2Proof/Laws/Step.lean ====
section
/-! SUPPORT. Said once: what a fetch leaves and what a step can do. An invariant of the machine follows from these cases. -/

namespace Sys2Proof.Machine

open Sys2Proof

/-- A fetch changes nothing but the platform's answers, the device log and the free-value counter. -/
theorem fetch_frame (s : State) :
    s.fetch.state.a = s.a ∧ s.fetch.state.x = s.x ∧ s.fetch.state.y = s.y ∧ s.fetch.state.s = s.s ∧
      s.fetch.state.pc = s.pc ∧ s.fetch.state.p = s.p ∧ s.fetch.state.nmiPending = s.nmiPending ∧
      s.fetch.state.irqWindow = s.irqWindow ∧ s.fetch.state.mem = s.mem ∧ s.fetch.state.platform = s.platform ∧
      s.fetch.state.inputs = s.inputs := by
  simp only [State.fetch]
  split <;> simp

/-- The four ways a step answers a next state. -/
theorem step_cases {s t : State} (h : step s = .next t) :
    t = s.latched.resetSequence.setIrqWindow false ∨ t = s.latched.nmiEntry.setIrqWindow false ∨
      t = s.latched.irqEntry.setIrqWindow false ∨
      ∃ i u, Meaning i s.latched.fetch.state u ∧
        t = u.setIrqWindow (opensIrqWindow i && !s.latched.fetch.state.p.i && u.p.i) := by
  unfold step at h
  split at h
  · exact .inl (by cases h; rfl)
  · exact .inr (.inl (by cases h; rfl))
  · exact .inr (.inr (.inl (by cases h; rfl)))
  · unfold runNext at h
    simp only at h
    split at h
    · cases h
    · next i _ =>
      obtain ⟨u, hu, m⟩ | ⟨-, -, hr⟩ := exec_meaning i s.latched.fetch.state
      · simp only [runInstr, hu] at h
        cases h
        exact .inr (.inr (.inr ⟨i, u, m, rfl⟩))
      · simp only [runInstr, hr] at h
        cases h

end Sys2Proof.Machine
end

