-- ==== Sys2Proof/Tests/Slice0.lean ====
section
/-! SUPPORT. Named tests. The decode tests write every row's word out from the Encoding lines of 40_arithmetic.md to 49_system.md.
The step tests are vectors of 95_test_vectors.md, whose identifier each name ends in. The witnesses meet the hypotheses of the
statements of Certificates/Slice0/Obligations.lean, each at values on the edge of its range. -/

namespace Sys2Proof.Tests

open Sys2Proof Sys2Proof.Machine

/-! ### Well-formedness: one ill-formed term for each check -/

theorem test_wellformed_refuses_store_immediate : formWellFormed .sta (.immediate 0) = false := by decide
theorem test_wellformed_refuses_stx_zero_page_x : formWellFormed .stx (.memory (.zeroPageX 0)) = false := by decide
theorem test_wellformed_refuses_branch_absolute : formWellFormed .bne (.memory (.absolute 0)) = false := by decide
theorem test_wellformed_refuses_accumulator_increment : formWellFormed .inc .accumulator = false := by decide
theorem test_wellformed_refuses_bit_immediate : formWellFormed .bit (.immediate 0) = false := by decide
theorem test_wellformed_accepts_adc_indirect_y : (Instr.adcIndirectY 0xFF).wellFormed = true := by decide
theorem test_wellformed_refuses_backward_region : Region.wellFormed ⟨0x8000, 0x7FFF, .rom⟩ = false := by decide
theorem test_wellformed_refuses_overlapping_regions :
    Platform.wellFormed ⟨[⟨0x8000, 0xFFFF, .rom⟩, ⟨0xFFFF, 0xFFFF, .device⟩], true, false, .nmos⟩ = false := by decide
theorem test_wellformed_accepts_adjacent_regions :
    Platform.wellFormed ⟨[⟨0x8000, 0xFFFF, .rom⟩, ⟨0x7FFF, 0x7FFF, .device⟩], true, false, .nmos⟩ = true := by decide

/-! ### Decoding: every row's word, written out from the spec's encoding of it (40 to 49, R115 to R202) -/

theorem test_decode_adc :
    decode [0x69, 0x14] = .ok (.adcImmediate 0x14, []) ∧ decode [0x65, 0x25] = .ok (.adcZeroPage 0x25, []) ∧
    decode [0x75, 0x36] = .ok (.adcZeroPageX 0x36, []) ∧ decode [0x6D, 0x47, 0x9B] = .ok (.adcAbsolute 0x9B47, []) ∧
    decode [0x7D, 0x58, 0xC0] = .ok (.adcAbsoluteX 0xC058, []) ∧
    decode [0x79, 0x69, 0xE5] = .ok (.adcAbsoluteY 0xE569, []) ∧ decode [0x61, 0x7A] = .ok (.adcIndirectX 0x7A, []) ∧
    decode [0x71, 0x8B] = .ok (.adcIndirectY 0x8B, []) := ⟨rfl, rfl, rfl, rfl, rfl, rfl, rfl, rfl⟩
theorem test_decode_sbc :
    decode [0xE9, 0x9C] = .ok (.sbcImmediate 0x9C, []) ∧ decode [0xE5, 0xAD] = .ok (.sbcZeroPage 0xAD, []) ∧
    decode [0xF5, 0xBE] = .ok (.sbcZeroPageX 0xBE, []) ∧ decode [0xED, 0xCF, 0xC3] = .ok (.sbcAbsolute 0xC3CF, []) ∧
    decode [0xFD, 0xE0, 0xE8] = .ok (.sbcAbsoluteX 0xE8E0, []) ∧
    decode [0xF9, 0xF1, 0x0D] = .ok (.sbcAbsoluteY 0x0DF1, []) ∧ decode [0xE1, 0x02] = .ok (.sbcIndirectX 0x02, []) ∧
    decode [0xF1, 0x13] = .ok (.sbcIndirectY 0x13, []) := ⟨rfl, rfl, rfl, rfl, rfl, rfl, rfl, rfl⟩
theorem test_decode_cmp :
    decode [0xC9, 0x24] = .ok (.cmpImmediate 0x24, []) ∧ decode [0xC5, 0x35] = .ok (.cmpZeroPage 0x35, []) ∧
    decode [0xD5, 0x46] = .ok (.cmpZeroPageX 0x46, []) ∧ decode [0xCD, 0x57, 0xEB] = .ok (.cmpAbsolute 0xEB57, []) ∧
    decode [0xDD, 0x68, 0x10] = .ok (.cmpAbsoluteX 0x1068, []) ∧
    decode [0xD9, 0x79, 0x35] = .ok (.cmpAbsoluteY 0x3579, []) ∧ decode [0xC1, 0x8A] = .ok (.cmpIndirectX 0x8A, []) ∧
    decode [0xD1, 0x9B] = .ok (.cmpIndirectY 0x9B, []) := ⟨rfl, rfl, rfl, rfl, rfl, rfl, rfl, rfl⟩
theorem test_decode_cpx :
    decode [0xE0, 0xAC] = .ok (.cpxImmediate 0xAC, []) ∧ decode [0xE4, 0xBD] = .ok (.cpxZeroPage 0xBD, []) ∧
    decode [0xEC, 0xCE, 0xEE] = .ok (.cpxAbsolute 0xEECE, []) := ⟨rfl, rfl, rfl⟩
theorem test_decode_cpy :
    decode [0xC0, 0xDF] = .ok (.cpyImmediate 0xDF, []) ∧ decode [0xC4, 0xF0] = .ok (.cpyZeroPage 0xF0, []) ∧
    decode [0xCC, 0x01, 0x5D] = .ok (.cpyAbsolute 0x5D01, []) := ⟨rfl, rfl, rfl⟩
theorem test_decode_and :
    decode [0x29, 0x12] = .ok (.andImmediate 0x12, []) ∧ decode [0x25, 0x23] = .ok (.andZeroPage 0x23, []) ∧
    decode [0x35, 0x34] = .ok (.andZeroPageX 0x34, []) ∧ decode [0x2D, 0x45, 0xF1] = .ok (.andAbsolute 0xF145, []) ∧
    decode [0x3D, 0x56, 0x16] = .ok (.andAbsoluteX 0x1656, []) ∧
    decode [0x39, 0x67, 0x3B] = .ok (.andAbsoluteY 0x3B67, []) ∧ decode [0x21, 0x78] = .ok (.andIndirectX 0x78, []) ∧
    decode [0x31, 0x89] = .ok (.andIndirectY 0x89, []) := ⟨rfl, rfl, rfl, rfl, rfl, rfl, rfl, rfl⟩
theorem test_decode_eor :
    decode [0x49, 0x9A] = .ok (.eorImmediate 0x9A, []) ∧ decode [0x45, 0xAB] = .ok (.eorZeroPage 0xAB, []) ∧
    decode [0x55, 0xBC] = .ok (.eorZeroPageX 0xBC, []) ∧ decode [0x4D, 0xCD, 0x19] = .ok (.eorAbsolute 0x19CD, []) ∧
    decode [0x5D, 0xDE, 0x3E] = .ok (.eorAbsoluteX 0x3EDE, []) ∧
    decode [0x59, 0xEF, 0x63] = .ok (.eorAbsoluteY 0x63EF, []) ∧ decode [0x41, 0x00] = .ok (.eorIndirectX 0x00, []) ∧
    decode [0x51, 0x11] = .ok (.eorIndirectY 0x11, []) := ⟨rfl, rfl, rfl, rfl, rfl, rfl, rfl, rfl⟩
theorem test_decode_ora :
    decode [0x09, 0x22] = .ok (.oraImmediate 0x22, []) ∧ decode [0x05, 0x33] = .ok (.oraZeroPage 0x33, []) ∧
    decode [0x15, 0x44] = .ok (.oraZeroPageX 0x44, []) ∧ decode [0x0D, 0x55, 0x41] = .ok (.oraAbsolute 0x4155, []) ∧
    decode [0x1D, 0x66, 0x66] = .ok (.oraAbsoluteX 0x6666, []) ∧
    decode [0x19, 0x77, 0x8B] = .ok (.oraAbsoluteY 0x8B77, []) ∧ decode [0x01, 0x88] = .ok (.oraIndirectX 0x88, []) ∧
    decode [0x11, 0x99] = .ok (.oraIndirectY 0x99, []) := ⟨rfl, rfl, rfl, rfl, rfl, rfl, rfl, rfl⟩
theorem test_decode_bit :
    decode [0x24, 0xAA] = .ok (.bitZeroPage 0xAA, []) ∧ decode [0x2C, 0xBB, 0x1F] = .ok (.bitAbsolute 0x1FBB, []) :=
    ⟨rfl, rfl⟩
theorem test_decode_asl :
    decode [0x06, 0xCC] = .ok (.aslZeroPage 0xCC, []) ∧ decode [0x16, 0xDD] = .ok (.aslZeroPageX 0xDD, []) ∧
    decode [0x0E, 0xEE, 0x8E] = .ok (.aslAbsolute 0x8EEE, []) ∧ decode [0x1E, 0xFF, 0xB3] = .ok (.aslAbsoluteX 0xB3FF, []) ∧
    decode [0x0A] = .ok (.aslAccumulator, []) := ⟨rfl, rfl, rfl, rfl, rfl⟩
theorem test_decode_lsr :
    decode [0x46, 0x21] = .ok (.lsrZeroPage 0x21, []) ∧ decode [0x56, 0x32] = .ok (.lsrZeroPageX 0x32, []) ∧
    decode [0x4E, 0x43, 0x47] = .ok (.lsrAbsolute 0x4743, []) ∧ decode [0x5E, 0x54, 0x6C] = .ok (.lsrAbsoluteX 0x6C54, []) ∧
    decode [0x4A] = .ok (.lsrAccumulator, []) := ⟨rfl, rfl, rfl, rfl, rfl⟩
theorem test_decode_rol :
    decode [0x26, 0x76] = .ok (.rolZeroPage 0x76, []) ∧ decode [0x36, 0x87] = .ok (.rolZeroPageX 0x87, []) ∧
    decode [0x2E, 0x98, 0x00] = .ok (.rolAbsolute 0x0098, []) ∧ decode [0x3E, 0xA9, 0x25] = .ok (.rolAbsoluteX 0x25A9, []) ∧
    decode [0x2A] = .ok (.rolAccumulator, []) := ⟨rfl, rfl, rfl, rfl, rfl⟩
theorem test_decode_ror :
    decode [0x66, 0xCB] = .ok (.rorZeroPage 0xCB, []) ∧ decode [0x76, 0xDC] = .ok (.rorZeroPageX 0xDC, []) ∧
    decode [0x6E, 0xED, 0xB9] = .ok (.rorAbsolute 0xB9ED, []) ∧ decode [0x7E, 0xFE, 0xDE] = .ok (.rorAbsoluteX 0xDEFE, []) ∧
    decode [0x6A] = .ok (.rorAccumulator, []) := ⟨rfl, rfl, rfl, rfl, rfl⟩
theorem test_decode_bcc :
    decode [0x90, 0x20] = .ok (.bcc 0x20, []) := rfl
theorem test_decode_bcs :
    decode [0xB0, 0x31] = .ok (.bcs 0x31, []) := rfl
theorem test_decode_beq :
    decode [0xF0, 0x42] = .ok (.beq 0x42, []) := rfl
theorem test_decode_bmi :
    decode [0x30, 0x53] = .ok (.bmi 0x53, []) := rfl
theorem test_decode_bne :
    decode [0xD0, 0x64] = .ok (.bne 0x64, []) := rfl
theorem test_decode_bpl :
    decode [0x10, 0x75] = .ok (.bpl 0x75, []) := rfl
theorem test_decode_bvc :
    decode [0x50, 0x86] = .ok (.bvc 0x86, []) := rfl
theorem test_decode_bvs :
    decode [0x70, 0x97] = .ok (.bvs 0x97, []) := rfl
theorem test_decode_clc :
    decode [0x18] = .ok (.clc, []) := rfl
theorem test_decode_cld :
    decode [0xD8] = .ok (.cld, []) := rfl
theorem test_decode_cli :
    decode [0x58] = .ok (.cli, []) := rfl
theorem test_decode_clv :
    decode [0xB8] = .ok (.clv, []) := rfl
theorem test_decode_sec :
    decode [0x38] = .ok (.sec, []) := rfl
theorem test_decode_sed :
    decode [0xF8] = .ok (.sed, []) := rfl
theorem test_decode_sei :
    decode [0x78] = .ok (.sei, []) := rfl
theorem test_decode_dec :
    decode [0xC6, 0x1F] = .ok (.decZeroPage 0x1F, []) ∧ decode [0xD6, 0x30] = .ok (.decZeroPageX 0x30, []) ∧
    decode [0xCE, 0x41, 0x9D] = .ok (.decAbsolute 0x9D41, []) ∧
    decode [0xDE, 0x52, 0xC2] = .ok (.decAbsoluteX 0xC252, []) := ⟨rfl, rfl, rfl, rfl⟩
theorem test_decode_dex :
    decode [0xCA] = .ok (.dex, []) := rfl
theorem test_decode_dey :
    decode [0x88] = .ok (.dey, []) := rfl
theorem test_decode_inc :
    decode [0xE6, 0x85] = .ok (.incZeroPage 0x85, []) ∧ decode [0xF6, 0x96] = .ok (.incZeroPageX 0x96, []) ∧
    decode [0xEE, 0xA7, 0x7B] = .ok (.incAbsolute 0x7BA7, []) ∧
    decode [0xFE, 0xB8, 0xA0] = .ok (.incAbsoluteX 0xA0B8, []) := ⟨rfl, rfl, rfl, rfl⟩
theorem test_decode_inx :
    decode [0xE8] = .ok (.inx, []) := rfl
theorem test_decode_iny :
    decode [0xC8] = .ok (.iny, []) := rfl
theorem test_decode_jmp :
    decode [0x4C, 0xEB, 0x0F] = .ok (.jmpAbsolute 0x0FEB, []) ∧ decode [0x6C, 0xFC, 0x34] = .ok (.jmpIndirect 0x34FC, []) :=
    ⟨rfl, rfl⟩
theorem test_decode_jsr :
    decode [0x20, 0x0D, 0x59] = .ok (.jsr 0x590D, []) := rfl
theorem test_decode_rts :
    decode [0x60] = .ok (.rts, []) := rfl
theorem test_decode_lda :
    decode [0xA9, 0x2F] = .ok (.ldaImmediate 0x2F, []) ∧ decode [0xA5, 0x40] = .ok (.ldaZeroPage 0x40, []) ∧
    decode [0xB5, 0x51] = .ok (.ldaZeroPageX 0x51, []) ∧ decode [0xAD, 0x62, 0x12] = .ok (.ldaAbsolute 0x1262, []) ∧
    decode [0xBD, 0x73, 0x37] = .ok (.ldaAbsoluteX 0x3773, []) ∧
    decode [0xB9, 0x84, 0x5C] = .ok (.ldaAbsoluteY 0x5C84, []) ∧ decode [0xA1, 0x95] = .ok (.ldaIndirectX 0x95, []) ∧
    decode [0xB1, 0xA6] = .ok (.ldaIndirectY 0xA6, []) := ⟨rfl, rfl, rfl, rfl, rfl, rfl, rfl, rfl⟩
theorem test_decode_ldx :
    decode [0xA2, 0xB7] = .ok (.ldxImmediate 0xB7, []) ∧ decode [0xA6, 0xC8] = .ok (.ldxZeroPage 0xC8, []) ∧
    decode [0xB6, 0xD9] = .ok (.ldxZeroPageY 0xD9, []) ∧ decode [0xAE, 0xEA, 0x3A] = .ok (.ldxAbsolute 0x3AEA, []) ∧
    decode [0xBE, 0xFB, 0x5F] = .ok (.ldxAbsoluteY 0x5FFB, []) := ⟨rfl, rfl, rfl, rfl, rfl⟩
theorem test_decode_ldy :
    decode [0xA0, 0x0C] = .ok (.ldyImmediate 0x0C, []) ∧ decode [0xA4, 0x1D] = .ok (.ldyZeroPage 0x1D, []) ∧
    decode [0xB4, 0x2E] = .ok (.ldyZeroPageX 0x2E, []) ∧ decode [0xAC, 0x3F, 0xF3] = .ok (.ldyAbsolute 0xF33F, []) ∧
    decode [0xBC, 0x50, 0x18] = .ok (.ldyAbsoluteX 0x1850, []) := ⟨rfl, rfl, rfl, rfl, rfl⟩
theorem test_decode_sta :
    decode [0x85, 0x61] = .ok (.staZeroPage 0x61, []) ∧ decode [0x95, 0x72] = .ok (.staZeroPageX 0x72, []) ∧
    decode [0x8D, 0x83, 0x87] = .ok (.staAbsolute 0x8783, []) ∧ decode [0x9D, 0x94, 0xAC] = .ok (.staAbsoluteX 0xAC94, []) ∧
    decode [0x99, 0xA5, 0xD1] = .ok (.staAbsoluteY 0xD1A5, []) ∧ decode [0x81, 0xB6] = .ok (.staIndirectX 0xB6, []) ∧
    decode [0x91, 0xC7] = .ok (.staIndirectY 0xC7, []) := ⟨rfl, rfl, rfl, rfl, rfl, rfl, rfl⟩
theorem test_decode_stx :
    decode [0x86, 0xD8] = .ok (.stxZeroPage 0xD8, []) ∧ decode [0x96, 0xE9] = .ok (.stxZeroPageY 0xE9, []) ∧
    decode [0x8E, 0xFA, 0x8A] = .ok (.stxAbsolute 0x8AFA, []) := ⟨rfl, rfl, rfl⟩
theorem test_decode_sty :
    decode [0x84, 0x0B] = .ok (.styZeroPage 0x0B, []) ∧ decode [0x94, 0x1C] = .ok (.styZeroPageX 0x1C, []) ∧
    decode [0x8C, 0x2D, 0xF9] = .ok (.styAbsolute 0xF92D, []) := ⟨rfl, rfl, rfl⟩
theorem test_decode_pha :
    decode [0x48] = .ok (.pha, []) := rfl
theorem test_decode_php :
    decode [0x08] = .ok (.php, []) := rfl
theorem test_decode_pla :
    decode [0x68] = .ok (.pla, []) := rfl
theorem test_decode_plp :
    decode [0x28] = .ok (.plp, []) := rfl
theorem test_decode_tax :
    decode [0xAA] = .ok (.tax, []) := rfl
theorem test_decode_tay :
    decode [0xA8] = .ok (.tay, []) := rfl
theorem test_decode_tsx :
    decode [0xBA] = .ok (.tsx, []) := rfl
theorem test_decode_txa :
    decode [0x8A] = .ok (.txa, []) := rfl
theorem test_decode_txs :
    decode [0x9A] = .ok (.txs, []) := rfl
theorem test_decode_tya :
    decode [0x98] = .ok (.tya, []) := rfl
theorem test_decode_brk :
    decode [0x00] = .ok (.brk, []) := rfl
theorem test_decode_rti :
    decode [0x40] = .ok (.rti, []) := rfl
theorem test_decode_nop :
    decode [0xEA] = .ok (.nop, []) := rfl

/-- An undefined opcode is refused by name (30_encoding.md R100), and an instruction cut short is no instruction. -/
theorem test_decode_refuses :
    decode [0x02] = .error (.undefinedOpcode 0x02) ∧ decode [0xFF, 0x00] = .error (.undefinedOpcode 0xFF) ∧
    decode [0x6C, 0x00] = .error .truncated ∧ decode [] = .error .truncated := ⟨rfl, rfl, rfl, rfl⟩

/-- The host's two reads of a table word: bits 7:0 are the first byte. -/
theorem test_decode_table_word :
    decodeTableWord 16 0x5069 = some (.adcImmediate 0x50) ∧ decodeTableWord 8 0x69 = some (.adcImmediate 0x00) ∧
    decodeTableWord 24 0x12346C = some (.jmpIndirect 0x1234) ∧ decodeTableWord 8 0x02 = none := by decide

/-! ### One step each: vectors of 95_test_vectors.md -/

/-- The vectors' default state: all RAM, S = 0xFF, every flag and register 0. -/
def machine (pc : Word) (cells : Memory) : State :=
  { State.reset with pc := pc, s := 0xFF, p := ⟨false, false, false, false, false, false⟩, mem := cells }

/-- The flags, 1 for set, in the order N V D I Z C. -/
def fl (n v d i z c : Nat) : Flags := ⟨n == 1, v == 1, d == 1, i == 1, z == 1, c == 1⟩

/-- What a view of the state after one step shows; nothing if the step stops. -/
def after {α : Type} (s : State) (view : State → α) : Option α :=
  match step s with
  | .next t => some (view t)
  | _ => none

theorem test_adc_signed_overflow_adc04 :
    after { machine 0x0600 [(0x0600, 0x69)] with a := 0x7F, p := fl 0 0 0 0 0 1 }
      (fun t => (t.pc, t.a, t.p)) = some (0x0602, 0x80, fl 1 1 0 0 0 0) := by decide
theorem test_adc_zero_page_x_wraps_adc13 :
    after { machine 0x0600 [(0x0010, 0x05), (0x0110, 0x77), (0x0600, 0x75), (0x0601, 0xF0)] with a := 0x01, x := 0x20 }
      (fun t => (t.pc, t.a, t.p)) = some (0x0602, 0x06, fl 0 0 0 0 0 0) := by decide
theorem test_adc_absolute_y_wraps_adc16 :
    after { machine 0x0600 [(0x0001, 0x40), (0x0600, 0x79), (0x0601, 0xFF), (0x0602, 0xFF)] with a := 0x01, y := 0x02 }
      (fun t => (t.pc, t.a, t.p)) = some (0x0603, 0x41, fl 0 0 0 0 0 0) := by decide
theorem test_adc_indirect_x_wraps_adc18 :
    after { machine 0x0600 [(0x0000, 0x12), (0x00FF, 0x34), (0x0100, 0x99), (0x0600, 0x61), (0x0601, 0xFE),
        (0x1234, 0x0B)] with a := 0x01, x := 0x01 }
      (fun t => (t.pc, t.a, t.p)) = some (0x0602, 0x0C, fl 0 0 0 0 0 0) := by decide
theorem test_adc_indirect_y_pointer_wraps_adc20 :
    after { machine 0x0600 [(0x0000, 0x04), (0x0100, 0x77), (0x0401, 0x0D), (0x0600, 0x71), (0x0601, 0xFF)]
        with a := 0x01, y := 0x01 }
      (fun t => (t.pc, t.a, t.p)) = some (0x0602, 0x0E, fl 0 0 0 0 0 0) := by decide
theorem test_adc_decimal_z_is_binary_add02 :
    after { machine 0x0600 [(0x0600, 0x69), (0x0601, 0x01)] with a := 0x99, p := fl 0 0 1 0 0 0 }
      (fun t => (t.pc, t.a, t.p)) = some (0x0602, 0x00, fl 1 0 1 0 0 1) := by decide
theorem test_adc_decimal_invalid_digits_add12 :
    after { machine 0x0600 [(0x0600, 0x69), (0x0601, 0xFF)] with a := 0xFF, p := fl 0 0 1 0 0 1 }
      (fun t => (t.pc, t.a, t.p)) = some (0x0602, 0x55, fl 1 0 1 0 0 1) := by decide
theorem test_sbc_signed_overflow_sbc09 :
    after { machine 0x0600 [(0x0600, 0xE9), (0x0601, 0xFF)] with a := 0x7F, p := fl 0 0 0 0 0 1 }
      (fun t => (t.pc, t.a, t.p)) = some (0x0602, 0x80, fl 1 1 0 0 0 0) := by decide
theorem test_sbc_absolute_y_sbc12 :
    after { machine 0x0600 [(0x0600, 0xF9), (0x0602, 0x10), (0x10FF, 0x06)] with a := 0x05, y := 0xFF, p := fl 0 0 0 0 0 1 }
      (fun t => (t.pc, t.a, t.p)) = some (0x0603, 0xFF, fl 1 0 0 0 0 0) := by decide
theorem test_sbc_decimal_sbd03 :
    after { machine 0x0600 [(0x0600, 0xE9), (0x0601, 0x02)] with a := 0x32, p := fl 0 0 1 0 0 0 }
      (fun t => (t.pc, t.a, t.p)) = some (0x0602, 0x29, fl 0 0 1 0 0 1) := by decide
theorem test_sbc_decimal_invalid_digit_sbd09 :
    after { machine 0x0600 [(0x0600, 0xE9), (0x0601, 0x0F)] with a := 0x00, p := fl 0 0 1 0 0 1 }
      (fun t => (t.pc, t.a, t.p)) = some (0x0602, 0x9B, fl 1 0 1 0 0 0) := by decide
theorem test_cmp_high_bit_cmp05 :
    after { machine 0x0600 [(0x0600, 0xC9)] with a := 0x80 }
      (fun t => (t.pc, t.p)) = some (0x0602, fl 1 0 0 0 0 1) := by decide
theorem test_cmp_indirect_y_cmp09 :
    after { machine 0x0600 [(0x0011, 0x02), (0x0202, 0x05), (0x0600, 0xD1), (0x0601, 0x10)] with a := 0x05, y := 0x02 }
      (fun t => (t.pc, t.p)) = some (0x0602, fl 0 0 0 0 1 1) := by decide
theorem test_cpx_absolute_cmp12 :
    after { machine 0x0600 [(0x0300, 0x7F), (0x0600, 0xEC), (0x0602, 0x03)] with x := 0xFF }
      (fun t => (t.pc, t.p)) = some (0x0603, fl 1 0 0 0 0 1) := by decide
theorem test_cpy_immediate_cmp13 :
    after { machine 0x0600 [(0x0600, 0xC0)] with y := 0xFF }
      (fun t => (t.pc, t.p)) = some (0x0602, fl 1 0 0 0 0 1) := by decide
theorem test_and_zero_page_x_log04 :
    after { machine 0x0600 [(0x0011, 0x55), (0x0600, 0x35), (0x0601, 0x10)] with a := 0xFF, x := 0x01 }
      (fun t => (t.pc, t.a, t.p)) = some (0x0602, 0x55, fl 0 0 0 0 0 0) := by decide
theorem test_eor_absolute_y_log08 :
    after { machine 0x0600 [(0x0203, 0xF0), (0x0600, 0x59), (0x0602, 0x02)] with a := 0x0F, y := 0x03 }
      (fun t => (t.pc, t.a, t.p)) = some (0x0603, 0xFF, fl 1 0 0 0 0 0) := by decide
theorem test_ora_indirect_x_log11 :
    after { machine 0x0600 [(0x0013, 0x02), (0x0200, 0x02), (0x0600, 0x01), (0x0601, 0x10)] with a := 0x01, x := 0x02 }
      (fun t => (t.pc, t.a, t.p)) = some (0x0602, 0x03, fl 0 0 0 0 0 0) := by decide
theorem test_bit_zero_page_log13 :
    after { machine 0x0600 [(0x0010, 0xC0), (0x0600, 0x24), (0x0601, 0x10)] with a := 0x01 }
      (fun t => (t.pc, t.p)) = some (0x0602, fl 1 1 0 0 1 0) := by decide
theorem test_bit_absolute_log16 :
    after { machine 0x0600 [(0x0300, 0x80), (0x0600, 0x2C), (0x0602, 0x03)] with a := 0x80 }
      (fun t => (t.pc, t.p)) = some (0x0603, fl 1 0 0 0 0 0) := by decide
theorem test_asl_accumulator_shf02 :
    after { machine 0x0600 [(0x0600, 0x0A)] with a := 0x80 }
      (fun t => (t.pc, t.a, t.p)) = some (0x0601, 0x00, fl 0 0 0 0 1 1) := by decide
theorem test_asl_absolute_x_shf05 :
    after { machine 0x0600 [(0x0301, 0xFF), (0x0600, 0x1E), (0x0602, 0x03)] with x := 0x01 }
      (fun t => (t.pc, t.p, t.byteAt 0x0301)) = some (0x0603, fl 1 0 0 0 0 1, 0xFE) := by decide
theorem test_lsr_clears_n_shf07 :
    after { machine 0x0600 [(0x0600, 0x4A)] with a := 0x01, p := fl 1 0 0 0 0 0 }
      (fun t => (t.pc, t.a, t.p)) = some (0x0601, 0x00, fl 0 0 0 0 1 1) := by decide
theorem test_lsr_zero_page_x_wraps_shf09 :
    after { machine 0x0600 [(0x0000, 0x02), (0x0600, 0x56), (0x0601, 0x10)] with x := 0xF0 }
      (fun t => (t.pc, t.p, t.byteAt 0x0000)) = some (0x0602, fl 0 0 0 0 0 0, 0x01) := by decide
theorem test_rol_accumulator_shf11 :
    after { machine 0x0600 [(0x0600, 0x2A)] with a := 0x80, p := fl 0 0 0 0 0 0 }
      (fun t => (t.pc, t.a, t.p)) = some (0x0601, 0x00, fl 0 0 0 0 1 1) := by decide
theorem test_rol_absolute_shf13 :
    after { machine 0x0600 [(0x0300, 0xFF), (0x0600, 0x2E), (0x0602, 0x03)] with p := fl 0 0 0 0 0 1 }
      (fun t => (t.pc, t.p)) = some (0x0603, fl 1 0 0 0 0 1) := by decide
theorem test_ror_accumulator_shf16 :
    after { machine 0x0600 [(0x0600, 0x6A)] with a := 0x00, p := fl 0 0 0 0 0 1 }
      (fun t => (t.pc, t.a, t.p)) = some (0x0601, 0x80, fl 1 0 0 0 0 0) := by decide
theorem test_ror_zero_page_shf17 :
    after { machine 0x0600 [(0x0010, 0xFE), (0x0600, 0x66), (0x0601, 0x10)] with p := fl 0 0 0 0 0 0 }
      (fun t => (t.pc, t.p, t.byteAt 0x0010)) = some (0x0602, fl 0 0 0 0 0 0, 0x7F) := by decide
theorem test_bcc_not_taken_bra02 :
    after { machine 0x0600 [(0x0600, 0x90), (0x0601, 0x05)] with p := fl 0 0 0 0 0 1 }
      (fun t => (t.pc, t.p)) = some (0x0602, fl 0 0 0 0 0 1) := by decide
theorem test_bcc_wraps_forward_bra18 :
    after { machine 0xFFF0 [(0xFFF0, 0x90), (0xFFF1, 0x7F)] with p := fl 0 0 0 0 0 0 }
      (fun t => (t.pc, t.p)) = some (0x0071, fl 0 0 0 0 0 0) := by decide
theorem test_bcs_to_itself_bra03 :
    after { machine 0x0600 [(0x0600, 0xB0), (0x0601, 0xFE)] with p := fl 0 0 0 0 0 1 }
      (fun t => (t.pc, t.p)) = some (0x0600, fl 0 0 0 0 0 1) := by decide
theorem test_beq_taken_bra05 :
    after { machine 0x0610 [(0x0610, 0xF0), (0x0611, 0x10)] with p := fl 0 0 0 0 1 0 }
      (fun t => (t.pc, t.p)) = some (0x0622, fl 0 0 0 0 1 0) := by decide
theorem test_bmi_farthest_back_bra07 :
    after { machine 0x0600 [(0x0600, 0x30), (0x0601, 0x80)] with p := fl 1 0 0 0 0 0 }
      (fun t => (t.pc, t.p)) = some (0x0582, fl 1 0 0 0 0 0) := by decide
theorem test_bne_spans_the_top_bra20 :
    after { machine 0xFFFF [(0x0000, 0x10), (0xFFFF, 0xD0)] with p := fl 0 0 0 0 0 0 }
      (fun t => (t.pc, t.p)) = some (0x0011, fl 0 0 0 0 0 0) := by decide
theorem test_bpl_farthest_forward_bra12 :
    after { machine 0x0600 [(0x0600, 0x10), (0x0601, 0x7F)] with p := fl 0 0 0 0 0 0 }
      (fun t => (t.pc, t.p)) = some (0x0681, fl 0 0 0 0 0 0) := by decide
theorem test_bvc_taken_bra14 :
    after { machine 0x0600 [(0x0600, 0x50), (0x0601, 0x02)] with p := fl 0 0 0 0 0 0 }
      (fun t => (t.pc, t.p)) = some (0x0604, fl 0 0 0 0 0 0) := by decide
theorem test_bvs_taken_bra17 :
    after { machine 0x0600 [(0x0600, 0x70), (0x0601, 0x02)] with p := fl 0 1 0 0 0 0 }
      (fun t => (t.pc, t.p)) = some (0x0604, fl 0 1 0 0 0 0) := by decide
theorem test_clc_keeps_others_flg02 :
    after { machine 0x0600 [(0x0600, 0x18)] with p := fl 1 1 1 1 1 0 }
      (fun t => (t.pc, t.p)) = some (0x0601, fl 1 1 1 1 1 0) := by decide
theorem test_cld_flg03 :
    after { machine 0x0600 [(0x0600, 0xD8)] with p := fl 0 0 1 0 0 0 }
      (fun t => (t.pc, t.p)) = some (0x0601, fl 0 0 0 0 0 0) := by decide
theorem test_cli_flg04 :
    after { machine 0x0600 [(0x0600, 0x58)] with p := fl 0 0 0 1 0 0 }
      (fun t => (t.pc, t.p)) = some (0x0601, fl 0 0 0 0 0 0) := by decide
theorem test_clv_flg05 :
    after { machine 0x0600 [(0x0600, 0xB8)] with p := fl 0 1 0 0 0 0 }
      (fun t => (t.pc, t.p)) = some (0x0601, fl 0 0 0 0 0 0) := by decide
theorem test_sec_flg06 :
    after { machine 0x0600 [(0x0600, 0x38)] with p := fl 0 0 0 0 0 0 }
      (fun t => (t.pc, t.p)) = some (0x0601, fl 0 0 0 0 0 1) := by decide
theorem test_sed_flg08 :
    after { machine 0x0600 [(0x0600, 0xF8)] with p := fl 0 0 0 0 0 0 }
      (fun t => (t.pc, t.p)) = some (0x0601, fl 0 0 1 0 0 0) := by decide
theorem test_sei_flg09 :
    after { machine 0x0600 [(0x0600, 0x78)] with p := fl 0 0 0 0 0 0 }
      (fun t => (t.pc, t.p)) = some (0x0601, fl 0 0 0 1 0 0) := by decide
theorem test_dec_wraps_inc02 :
    after { machine 0x0600 [(0x0600, 0xC6), (0x0601, 0x10)] with p := fl 0 1 0 0 0 1 }
      (fun t => (t.pc, t.p, t.byteAt 0x0010)) = some (0x0602, fl 1 1 0 0 0 1, 0xFF) := by decide
theorem test_dec_absolute_x_inc03 :
    after { machine 0x0600 [(0x0305, 0x80), (0x0600, 0xDE), (0x0602, 0x03)] with x := 0x05 }
      (fun t => (t.pc, t.p, t.byteAt 0x0305)) = some (0x0603, fl 0 0 0 0 0 0, 0x7F) := by decide
theorem test_dex_wraps_inc05 :
    after { machine 0x0600 [(0x0600, 0xCA)] with x := 0x00 }
      (fun t => (t.pc, t.x, t.p)) = some (0x0601, 0xFF, fl 1 0 0 0 0 0) := by decide
theorem test_dey_inc06 :
    after { machine 0x0600 [(0x0600, 0x88)] with y := 0x80 }
      (fun t => (t.pc, t.y, t.p)) = some (0x0601, 0x7F, fl 0 0 0 0 0 0) := by decide
theorem test_inc_wraps_inc07 :
    after (machine 0x0600 [(0x0200, 0xFF), (0x0600, 0xEE), (0x0602, 0x02)])
      (fun t => (t.pc, t.p, t.byteAt 0x0200)) = some (0x0603, fl 0 0 0 0 1 0, 0x00) := by decide
theorem test_inc_zero_page_x_wraps_inc08 :
    after { machine 0x0600 [(0x000F, 0x7F), (0x0600, 0xF6), (0x0601, 0x10)] with x := 0xFF }
      (fun t => (t.pc, t.p, t.byteAt 0x000F)) = some (0x0602, fl 1 0 0 0 0 0, 0x80) := by decide
theorem test_inx_wraps_inc10 :
    after { machine 0x0600 [(0x0600, 0xE8)] with x := 0xFF, p := fl 0 0 0 0 0 0 }
      (fun t => (t.pc, t.x, t.p)) = some (0x0601, 0x00, fl 0 0 0 0 1 0) := by decide
theorem test_iny_wraps_inc12 :
    after { machine 0x0600 [(0x0600, 0xC8)] with y := 0xFF }
      (fun t => (t.pc, t.y, t.p)) = some (0x0601, 0x00, fl 0 0 0 0 1 0) := by decide
theorem test_jmp_absolute_jmp01 :
    after (machine 0x0600 [(0x0600, 0x4C), (0x0601, 0x34), (0x0602, 0x12)])
      (fun t => (t.pc, t.p)) = some (0x1234, fl 0 0 0 0 0 0) := by decide
theorem test_jmp_indirect_page_wrap_jmp03 :
    after (machine 0x0600 [(0x0600, 0x6C), (0x0601, 0xFF), (0x0602, 0x12), (0x1200, 0x56), (0x12FF, 0x34), (0x1300, 0x78)])
      (fun t => (t.pc, t.p)) = some (0x5634, fl 0 0 0 0 0 0) := by decide
theorem test_jsr_stack_wraps_jmp07 :
    after { machine 0x12FE [(0x12FE, 0x20), (0x1300, 0x80)] with s := 0x00 }
      (fun t => (t.pc, t.s, t.p, t.byteAt 0x0100)) = some (0x8000, 0xFE, fl 0 0 0 0 0 0, 0x13) := by decide
theorem test_jsr_spans_the_top_jmp08 :
    after { machine 0xFFFE [(0x0000, 0x80), (0x017F, 0xAA), (0x0180, 0xAA), (0xFFFE, 0x20)] with s := 0x80 }
      (fun t => (t.pc, t.s, t.p, t.byteAt 0x017F, t.byteAt 0x0180)) =
        some (0x8000, 0x7E, fl 0 0 0 0 0 0, 0x00, 0x00) := by decide
theorem test_rts_address_wraps_jmp10 :
    after { machine 0x0620 [(0x0100, 0xFF), (0x0101, 0xFF), (0x0620, 0x60)] with s := 0xFF }
      (fun t => (t.pc, t.s, t.p)) = some (0x0000, 0x01, fl 0 0 0 0 0 0) := by decide
theorem test_rts_stack_wraps_jmp11 :
    after { machine 0x0620 [(0x0100, 0x20), (0x01FF, 0x10), (0x0620, 0x60)] with s := 0xFE }
      (fun t => (t.pc, t.s, t.p)) = some (0x2011, 0x00, fl 0 0 0 0 0 0) := by decide
theorem test_lda_zero_page_x_wraps_lds04 :
    after { machine 0x0600 [(0x007F, 0x11), (0x017F, 0x22), (0x0600, 0xB5), (0x0601, 0x80)] with x := 0xFF }
      (fun t => (t.pc, t.a, t.p)) = some (0x0602, 0x11, fl 0 0 0 0 0 0) := by decide
theorem test_lda_absolute_x_wraps_lds07 :
    after { machine 0x0600 [(0x0000, 0x44), (0x0600, 0xBD), (0x0601, 0xFF), (0x0602, 0xFF)] with x := 0x01 }
      (fun t => (t.pc, t.a, t.p)) = some (0x0603, 0x44, fl 0 0 0 0 0 0) := by decide
theorem test_lda_indirect_x_pointer_wraps_lds10 :
    after { machine 0x0600 [(0x0000, 0x03), (0x0100, 0x09), (0x0300, 0x77), (0x0600, 0xA1), (0x0601, 0xFF)] with x := 0x00 }
      (fun t => (t.pc, t.a, t.p)) = some (0x0602, 0x77, fl 0 0 0 0 0 0) := by decide
theorem test_lda_indirect_y_wraps_lds12 :
    after { machine 0x0600 [(0x0000, 0x99), (0x0040, 0xFF), (0x0041, 0xFF), (0x0600, 0xB1), (0x0601, 0x40)] with y := 0x01 }
      (fun t => (t.pc, t.a, t.p)) = some (0x0602, 0x99, fl 1 0 0 0 0 0) := by decide
theorem test_ldx_zero_page_y_wraps_lds14 :
    after { machine 0x0600 [(0x0008, 0x12), (0x0600, 0xB6), (0x0601, 0x10)] with y := 0xF8 }
      (fun t => (t.pc, t.x, t.p)) = some (0x0602, 0x12, fl 0 0 0 0 0 0) := by decide
theorem test_ldx_absolute_y_lds15 :
    after { machine 0x0600 [(0x0600, 0xBE), (0x0602, 0x10), (0x1001, 0xFE)] with y := 0x01 }
      (fun t => (t.pc, t.x, t.p)) = some (0x0603, 0xFE, fl 1 0 0 0 0 0) := by decide
theorem test_ldy_zero_page_x_lds16 :
    after { machine 0x0600 [(0x0012, 0x7F), (0x0600, 0xB4), (0x0601, 0x10)] with x := 0x02 }
      (fun t => (t.pc, t.y, t.p)) = some (0x0602, 0x7F, fl 0 0 0 0 0 0) := by decide
theorem test_ldy_absolute_x_lds17 :
    after { machine 0x0600 [(0x0600, 0xBC), (0x0602, 0x10)] with x := 0x80 }
      (fun t => (t.pc, t.p)) = some (0x0603, fl 0 0 0 0 1 0) := by decide
theorem test_sta_zero_page_x_wraps_lds19 :
    after { machine 0x0600 [(0x0600, 0x95), (0x0601, 0xF0)] with a := 0x5A, x := 0x20 }
      (fun t => (t.pc, t.p, t.byteAt 0x0010)) = some (0x0602, fl 0 0 0 0 0 0, 0x5A) := by decide
theorem test_sta_indirect_y_lds23 :
    after { machine 0x0600 [(0x0011, 0x02), (0x0600, 0x91), (0x0601, 0x10)] with a := 0x42, y := 0x01 }
      (fun t => (t.pc, t.p, t.byteAt 0x0201)) = some (0x0602, fl 0 0 0 0 0 0, 0x42) := by decide
theorem test_sta_into_own_operand_lds24 :
    after { machine 0x0600 [(0x0600, 0x8D), (0x0601, 0x02), (0x0602, 0x06)] with a := 0x07 }
      (fun t => (t.pc, t.p, t.byteAt 0x0602)) = some (0x0603, fl 0 0 0 0 0 0, 0x07) := by decide
theorem test_stx_zero_page_y_wraps_lds26 :
    after { machine 0x0600 [(0x0600, 0x96), (0x0601, 0xF0)] with x := 0x08, y := 0x11 }
      (fun t => (t.pc, t.p, t.byteAt 0x0001)) = some (0x0602, fl 0 0 0 0 0 0, 0x08) := by decide
theorem test_sty_zero_page_x_wraps_lds27 :
    after { machine 0x0600 [(0x0600, 0x94), (0x0601, 0x01)] with x := 0xFF, y := 0x09 }
      (fun t => (t.pc, t.p, t.byteAt 0x0000)) = some (0x0602, fl 0 0 0 0 0 0, 0x09) := by decide
theorem test_pha_wraps_stk02 :
    after { machine 0x0600 [(0x0600, 0x48)] with a := 0x43, s := 0x00 }
      (fun t => (t.pc, t.s, t.p, t.byteAt 0x0100)) = some (0x0601, 0xFF, fl 0 0 0 0 0 0, 0x43) := by decide
theorem test_php_sets_bits_5_and_4_stk03 :
    after { machine 0x0600 [(0x0600, 0x08)] with p := fl 1 0 0 0 0 1 }
      (fun t => (t.pc, t.s, t.p, t.byteAt 0x01FF)) = some (0x0601, 0xFE, fl 1 0 0 0 0 1, 0xB1) := by decide
theorem test_pla_wraps_stk07 :
    after { machine 0x0600 [(0x0600, 0x68)] with a := 0x55, s := 0xFF }
      (fun t => (t.pc, t.a, t.s, t.p)) = some (0x0601, 0x00, 0x00, fl 0 0 0 0 1 0) := by decide
theorem test_plp_stk08 :
    after { machine 0x0600 [(0x01FF, 0xC3), (0x0600, 0x28)] with s := 0xFE }
      (fun t => (t.pc, t.s, t.p)) = some (0x0601, 0xFF, fl 1 1 0 0 1 1) := by decide
theorem test_plp_ignores_bits_5_and_4_stk10 :
    after { machine 0x0600 [(0x01FF, 0x30), (0x0600, 0x28)] with s := 0xFE, p := fl 1 1 1 1 1 1 }
      (fun t => (t.pc, t.s, t.p)) = some (0x0601, 0xFF, fl 0 0 0 0 0 0) := by decide
theorem test_tax_stk11 :
    after { machine 0x0600 [(0x0600, 0xAA)] with a := 0x90 }
      (fun t => (t.pc, t.x, t.p)) = some (0x0601, 0x90, fl 1 0 0 0 0 0) := by decide
theorem test_tay_stk12 :
    after { machine 0x0600 [(0x0600, 0xA8)] with a := 0x00, y := 0x01 }
      (fun t => (t.pc, t.y, t.p)) = some (0x0601, 0x00, fl 0 0 0 0 1 0) := by decide
theorem test_tsx_stk13 :
    after { machine 0x0600 [(0x0600, 0xBA)] with s := 0xFD }
      (fun t => (t.pc, t.x, t.p)) = some (0x0601, 0xFD, fl 1 0 0 0 0 0) := by decide
theorem test_txa_stk15 :
    after { machine 0x0600 [(0x0600, 0x8A)] with a := 0x80, x := 0x7F, p := fl 1 0 0 0 0 0 }
      (fun t => (t.pc, t.a, t.p)) = some (0x0601, 0x7F, fl 0 0 0 0 0 0) := by decide
theorem test_txs_keeps_flags_stk17 :
    after { machine 0x0600 [(0x0600, 0x9A)] with x := 0x00, s := 0xFF, p := fl 0 0 0 0 0 0 }
      (fun t => (t.pc, t.s, t.p)) = some (0x0601, 0x00, fl 0 0 0 0 0 0) := by decide
theorem test_tya_stk18 :
    after { machine 0x0600 [(0x0600, 0x98)] with y := 0x80 }
      (fun t => (t.pc, t.a, t.p)) = some (0x0601, 0x80, fl 1 0 0 0 0 0) := by decide
theorem test_brk_sys01 :
    after { machine 0x0600 [(0xFFFF, 0x80)] with p := fl 0 0 0 0 1 0 }
      (fun t => (t.pc, t.s, t.p, t.byteAt 0x01FD, t.byteAt 0x01FE, t.byteAt 0x01FF)) =
        some (0x8000, 0xFC, fl 0 0 0 1 1 0, 0x32, 0x02, 0x06) := by decide
theorem test_brk_stack_wraps_sys02 :
    after { machine 0x12FF [(0xFFFE, 0x34), (0xFFFF, 0x12)] with s := 0x01, p := fl 1 1 1 1 0 1 }
      (fun t => (t.pc, t.s, t.p, t.byteAt 0x0100, t.byteAt 0x0101, t.byteAt 0x01FF)) =
        some (0x1234, 0xFE, fl 1 1 1 1 0 1, 0x01, 0x13, 0xFD) := by decide
theorem test_rti_sys03 :
    after { machine 0x8000 [(0x01FD, 0x32), (0x01FE, 0x02), (0x01FF, 0x06), (0x8000, 0x40)]
        with s := 0xFC, p := fl 0 0 0 1 0 0 }
      (fun t => (t.pc, t.s, t.p)) = some (0x0602, 0xFF, fl 0 0 0 0 1 0) := by decide
theorem test_rti_ignores_bits_5_and_4_sys05 :
    after { machine 0x8000 [(0x0100, 0xCD), (0x0101, 0xAB), (0x8000, 0x40)] with s := 0xFE, p := fl 1 0 0 0 0 1 }
      (fun t => (t.pc, t.s, t.p)) = some (0xABCD, 0x01, fl 0 0 0 0 0 0) := by decide
theorem test_nop_sys06 :
    after { machine 0x0600 [(0x0600, 0xEA)] with a := 0x12, x := 0x34, y := 0x56, p := fl 1 1 1 1 1 1 }
      (fun t => (t.pc, t.p)) = some (0x0601, fl 1 1 1 1 1 1) := by decide
theorem test_irq_int01 :
    after { machine 0x0650 [(0xFFFF, 0x90)] with p := fl 0 0 0 0 1 1, inputs := [⟨false, false, true, false, true⟩] }
      (fun t => (t.pc, t.s, t.p, t.byteAt 0x01FD, t.byteAt 0x01FE, t.byteAt 0x01FF)) =
        some (0x9000, 0xFC, fl 0 0 0 1 1 1, 0x23, 0x50, 0x06) := by decide
theorem test_nmi_int02 :
    after { machine 0x0650 [(0xFFFB, 0xA0)] with p := fl 1 0 0 1 0 0, inputs := [⟨false, true, false, false, true⟩] }
      (fun t => (t.pc, t.s, t.p, t.byteAt 0x01FD, t.byteAt 0x01FE, t.byteAt 0x01FF)) =
        some (0xA000, 0xFC, fl 1 0 0 1 0 0, 0xA4, 0x50, 0x06) := by decide
theorem test_reset_int04 :
    after { machine 0x0650 [(0xFFFD, 0xC0)]
        with a := 0x12, s := 0xFF, p := fl 0 0 1 0 0 1, inputs := [⟨true, false, false, false, false⟩] }
      (fun t => (t.pc, t.s, t.p)) = some (0xC000, 0xFC, fl 0 0 1 1 0 1) := by decide
theorem test_reset_stack_wraps_int05 :
    after { machine 0x0650 [(0xFFFD, 0xC0)]
        with s := 0x01, p := fl 0 0 0 1 0 0, inputs := [⟨true, false, false, false, false⟩] }
      (fun t => (t.pc, t.s, t.p)) = some (0xC000, 0xFE, fl 0 0 0 1 0 0) := by decide
theorem test_jmp_indirect_no_page_wrap_jmp04 :
    after { machine 0x0600 [(0x0600, 0x6C), (0x0601, 0xFF), (0x0602, 0x12), (0x1200, 0x56), (0x12FF, 0x34),
        (0x1300, 0x78)] with platform := ⟨[], false, false, .nmos⟩ }
      (fun t => (t.pc, t.p)) = some (0x7834, fl 0 0 0 0 0 0) := by decide

/-! ### Boundaries, the memory map, placing an instruction -/

/-- The lines of one boundary, 1 for true: reset, NMI edge, IRQ level, SO edge, the chip takes what it may. -/
def lines (reset nmi irq so accept : Nat) : List StepInput := [⟨reset == 1, nmi == 1, irq == 1, so == 1, accept == 1⟩]

theorem test_irq_masked_by_i :
    after { machine 0x0650 [(0x0650, 0xEA)] with p := fl 0 0 0 1 0 0, inputs := lines 0 0 1 0 1 }
      (fun t => (t.pc, t.s, t.inputs)) = some (0x0651, 0xFF, []) := by decide
theorem test_irq_may_be_deferred :
    after { machine 0x0650 [(0x0650, 0xEA)] with inputs := lines 0 0 1 0 0 } (fun t => t.pc) = some 0x0651 := by decide
theorem test_nmi_deferred_stays_pending :
    after { machine 0x0650 [(0x0650, 0xEA)] with inputs := lines 0 1 0 0 0 } (fun t => (t.pc, t.nmiPending)) =
      some (0x0651, true) := by decide
theorem test_nmi_before_irq :
    after { machine 0x0650 [(0xFFFB, 0xA0), (0xFFFF, 0x90)] with inputs := lines 0 1 1 0 1 }
      (fun t => (t.pc, t.nmiPending)) = some (0xA000, false) := by decide
theorem test_reset_before_nmi :
    after { machine 0x0650 [(0xFFFB, 0xA0), (0xFFFD, 0xC0)] with inputs := lines 1 1 1 0 1, mem := [(0xFFFD, 0xC0)] }
      (fun t => (t.pc, t.nmiPending, t.mem)) = some (0xC000, false, [(0xFFFD, 0xC0)]) := by decide
theorem test_sei_opens_late_irq :
    after (machine 0x0600 [(0x0600, 0x78)]) (fun t => (t.p.i, t.irqWindow)) = some (true, true) := by decide
theorem test_late_irq_pushes_i_set :
    after { machine 0x0601 [(0xFFFF, 0x90)] with p := fl 0 0 0 1 0 0, irqWindow := true, inputs := lines 0 0 1 0 1 }
      (fun t => (t.pc, t.byteAt 0x01FD, t.irqWindow)) = some (0x9000, 0x24, false) := by decide
theorem test_so_edge_sets_v :
    after { machine 0x0600 [(0x0600, 0xEA)] with inputs := lines 0 0 0 1 0 } (fun t => t.p) = some (fl 0 1 0 0 0 0) := by
  decide
theorem test_int_clears_d_variant :
    after { machine 0x0600 [(0xFFFF, 0x80)] with p := fl 0 0 1 0 0 0, platform := ⟨[], true, true, .nmos⟩ }
      (fun t => (t.p, t.byteAt 0x01FD)) = some (fl 0 0 0 1 0 0, 0x38) := by decide

/-- ROM in the upper half, a device page at 0xD000, nothing at 0x4000 to 0x4FFF, RAM elsewhere. -/
def board : Platform :=
  ⟨[⟨0xD000, 0xD0FF, .device⟩, ⟨0xE000, 0xFFFF, .rom⟩, ⟨0x4000, 0x4FFF, .openBus⟩], true, false, .nmos⟩

/-- A platform with DECIMAL_MODE = refuse. -/
def decimalRefused : Platform := ⟨[], true, false, .refuse⟩

theorem test_board_wellformed : board.wellFormed = true := by decide
theorem test_rom_store_ignored :
    after { machine 0x0600 [(0x0600, 0x8D), (0x0602, 0xE0), (0xE000, 0x55)] with a := 0x42, platform := board }
      (fun t => t.byteAt 0xE000) = some 0x55 := by decide
theorem test_device_store_logged :
    after { machine 0x0600 [(0x0600, 0x8D), (0x0601, 0x05), (0x0602, 0xD0)] with a := 0x42, platform := board }
      (fun t => (t.busLog, t.byteAt 0xD005)) = some ([.write 0xD005 0x42], 0x00) := by decide
theorem test_device_read_modify_write :
    after { machine 0x0600 [(0x0600, 0xEE), (0x0602, 0xD0)] with platform := board, answers := [0x7F, 0x01] }
      (fun t => (t.busLog, t.answers, t.p)) =
      some ([.write 0xD000 0x80, .read 0xD000 0x7F], [0x01], fl 1 0 0 0 0 0) := by decide
theorem test_open_bus_read_goes_on :
    after { machine 0x0600 [(0x0600, 0xAD), (0x0602, 0x40)] with platform := board } (fun t => (t.pc, t.freeCount)) =
      some (0x0603, 1) := by decide

theorem test_undefined_opcode_refused :
    step (machine 0x0600 [(0x0600, 0x80)]) = .refused (.undefinedOpcode 0x80 0x0600) := rfl
/-- Program P7's remark (95): with DECIMAL_MODE = refuse an ADC with D = 1 is refused; with D = 0 it runs. -/
theorem test_decimal_mode_refused :
    step { machine 0x0600 [(0x0600, 0x69), (0x0601, 0x01)] with p := fl 0 0 1 0 0 0, platform := decimalRefused } =
      .refused .decimalMode := rfl
theorem test_decimal_mode_refused_binary_runs :
    after { machine 0x0600 [(0x0600, 0xE9), (0x0601, 0x01)] with a := 0x05, p := fl 0 0 0 0 0 1, platform := decimalRefused }
      (fun t => (t.pc, t.a)) = some (0x0602, 0x04) := by decide
/-- A NOP, then the stated end: the opcode there, an undefined one, is not fetched. -/
theorem test_run_ends_at_stated_pc :
    (machine 0x0600 [(0x0600, 0xEA), (0x0601, 0x02)]).runTo 0x0601 9 =
      .ended (machine 0x0601 [(0x0600, 0xEA), (0x0601, 0x02)]) := by decide
theorem test_run_refused_before_stated_pc :
    (machine 0x0600 [(0x0600, 0xEA), (0x0601, 0x02)]).runTo 0x0602 9 = .refused (.undefinedOpcode 0x02 0x0601) := by decide
theorem test_placed_instruction_runs :
    after (State.reset.withFetchWord 16 0x80A9) (fun t => (t.pc, t.a)) = some (0x0002, 0x80) := by decide
theorem test_placed_instruction_runs_on_board :
    after ({ machine 0xE000 [] with platform := board, inputs := lines 1 0 1 0 1 }.withFetchWord 24 0x12344C)
      (fun t => t.pc) = some 0x1234 := by decide
theorem test_write_keeps_order :
    Memory.write (Memory.write [(0x0010, 0x01)] 0x0020 0x02) 0x0005 0x03 = [(0x0005, 0x03), (0x0010, 0x01), (0x0020, 0x02)] := by
  decide
theorem test_write_zero_unlists : Memory.write [(0x0010, 0x01)] 0x0010 0x00 = [] := by decide
theorem test_wf_refuses_unsorted : Memory.wf [(0x0020, 0x01), (0x0010, 0x01)] = false := by decide
theorem test_wf_refuses_listed_zero : Memory.wf [(0x0020, 0x00)] = false := by decide
theorem test_wf_refuses_outside : Memory.wf [(0x10000, 0x01)] = false := by decide

/-! ### Witnesses: each statement's hypotheses are met, clause by clause -/

theorem witness_EncodeOfDecode : decode [0x69, 0xFF, 0x12] = .ok (.adcImmediate 0xFF, [0x12]) := rfl

theorem witness_UndefinedOpcodesAreRefused :
    (0x02 : Byte).toNat ∈ undefinedOpcodes ∧ (0xFF : Byte).toNat ∈ undefinedOpcodes ∧
    (0x00 : Byte).toNat ∉ undefinedOpcodes ∧ (0xFE : Byte).toNat ∉ undefinedOpcodes ∧
    (let s := machine 0xFFFF [(0xFFFF, 0xFF)]
     s.action = .instruction ∧ (s.latched.busRead s.pc).1.toNat ∈ undefinedOpcodes) ∧
    (State.reset.action = .instruction → (State.reset.latched.busRead State.reset.pc).1.toNat ∉ undefinedOpcodes) ∧
    (State.reset.p.d = false ∨ State.reset.platform.decimalMode = .nmos) := by decide

/-- Both refusals occur, each where its clause says. -/
theorem witness_OnlyTwoRefusalPoints :
    let s := machine 0xFFFF [(0xFFFF, 0x02)]
    let t := { machine 0x0600 [(0x0600, 0xF1)] with p := fl 0 0 1 0 0 0, platform := decimalRefused }
    step s = .refused (.undefinedOpcode 0x02 0xFFFF) ∧ s.action = .instruction ∧
    (s.latched.busRead s.pc).1.toNat ∈ undefinedOpcodes ∧
    step t = .refused .decimalMode ∧ t.p.d = true ∧ t.platform.decimalMode = .refuse ∧
    exec (.sbcIndirectY 0x00) t = .refused .decimalMode :=
  ⟨rfl, rfl, by decide, rfl, rfl, rfl, rfl⟩

/-- A run that ends at once, one that ends with its last step, one that is unfinished. -/
theorem witness_RunEndsAtStatedPc :
    let s := machine 0xFFFF [(0xFFFF, 0xEA)]
    s.runTo 0xFFFF 0 = .ended s ∧ s.runTo 0x0000 1 = .ended (machine 0x0000 [(0xFFFF, 0xEA)]) ∧
    s.runTo 0x0000 0 = .unfinished s := by decide

theorem witness_OpcodeBitPattern :
    [Mnemonic.ora, .andA, .eor, .adc, .sta, .lda, .cmp, .sbc][0]? = some (Instr.oraIndirectX 0).mnemonic ∧
    [AddrMode.indirectX, .zeroPage, .immediate, .absolute, .indirectY, .zeroPageX, .absoluteY, .absoluteX][0]? =
      some (Instr.oraIndirectX 0).operand.mode ∧
    [Mnemonic.ora, .andA, .eor, .adc, .sta, .lda, .cmp, .sbc][7]? = some (Instr.sbcAbsoluteX 0).mnemonic ∧
    [AddrMode.indirectX, .zeroPage, .immediate, .absolute, .indirectY, .zeroPageX, .absoluteY, .absoluteX][7]? =
      some (Instr.sbcAbsoluteX 0).operand.mode ∧
    [Mnemonic.asl, .rol, .lsr, .ror, .stx, .ldx, .dec, .inc][5]? = some (Instr.ldxAbsoluteY 0).mnemonic ∧
    (7, (Instr.ldxAbsoluteY 0).operand.mode) ∈ [(0, AddrMode.immediate), (1, .zeroPage), (2, .accumulator), (3, .absolute),
      (5, .zeroPageX), (5, .zeroPageY), (7, .absoluteX), (7, .absoluteY)] := by decide

/-- The instruction's bytes lie at 0xFFFE, 0xFFFF and 0x0000. -/
theorem witness_StepRunsDecodedInstruction :
    let s := machine 0xFFFE [(0x0000, 0x80), (0xFFFE, 0x4C)]
    s.action = .instruction ∧ (∀ k < (Instr.jmpAbsolute 0x8000).length, s.memoryAt (s.pc + BitVec.ofNat 16 k)) ∧
    decode [s.byteAt s.pc, s.byteAt (s.pc + 1), s.byteAt (s.pc + 2)] = .ok (.jmpAbsolute 0x8000, []) ∧
    exec (.jmpAbsolute 0x8000) s.latched = .next (s.setPc 0x8000) ∧ s.inputs = [] :=
  ⟨rfl, fun _ _ => rfl, rfl, rfl, rfl⟩

theorem witness_ResetSequence :
    let s := { machine 0x0650 [(0xFFFD, 0xC0)] with s := 0x01, p := fl 0 0 1 0 0 0, inputs := lines 1 1 1 1 1 }
    s.input.resetLine = true ∧ s.memoryAt 0xFFFC ∧ s.memoryAt 0xFFFD ∧ s.platform.intClearsD = false :=
  ⟨rfl, rfl, rfl, rfl⟩

theorem witness_InterruptEntry :
    let s := machine 0x0650 [(0xFFFF, 0x90)]
    s.memoryAt 0xFFFE ∧ s.memoryAt (0xFFFE + 1) ∧ s.memoryAt 0x0200 ∧ s.memoryAt 0xFFFF ∧ s.memoryAt (0xFFFF + 1) ∧
    0x0200 ≤ (0xFFFE : Word).toNat ∧ 0x0200 ≤ (0x0200 : Word).toNat := ⟨rfl, rfl, rfl, rfl, rfl, by decide, by decide⟩

/-- An NMI latched before this boundary, and one whose edge comes at it, with I set. -/
theorem witness_NmiEntry :
    let s := { machine 0x0650 [] with nmiPending := true, inputs := lines 0 0 0 0 1 }
    let t := { machine 0x0650 [] with p := fl 0 0 0 1 0 0, inputs := lines 0 1 1 0 1 }
    (s.input.resetLine = false ∧ (s.nmiPending || s.input.nmiEdge) = true ∧ s.input.accept = true) ∧
    t.input.resetLine = false ∧ (t.nmiPending || t.input.nmiEdge) = true ∧ t.input.accept = true := by decide

theorem witness_IrqEntry :
    let s := { machine 0x0650 [] with inputs := lines 0 0 1 0 1 }
    s.input.resetLine = false ∧ s.nmiPending = false ∧ s.input.nmiEdge = false ∧ s.input.irqLine = true ∧ s.p.i = false ∧
    s.input.accept = true := by decide

theorem witness_MaskedIrqIsInvisible :
    let s := { machine 0x0650 [] with p := fl 0 0 0 1 0 0, inputs := lines 0 0 1 0 1 }
    s.inputs = ⟨false, false, true, false, true⟩ :: [] ∧ s.p.i = true ∧ s.irqWindow = false := by decide

theorem witness_InterruptMayBeDeferred :
    let s := { machine 0x0650 [] with nmiPending := true, inputs := lines 0 1 1 0 0 }
    let t := { machine 0x0650 [] with p := fl 0 0 0 1 0 0, irqWindow := true, inputs := lines 0 0 1 0 1 }
    (s.input.resetLine = false ∧ s.input.accept = false) ∧
    t.irqWindow = true ∧ t.p.i = true ∧ t.input.resetLine = false ∧ t.nmiPending = false ∧ t.input.nmiEdge = false ∧
    t.input.irqLine = true ∧ t.input.accept = true := by decide

theorem witness_StepKeepsInvariant :
    let s := { machine 0x0600 [(0x0600, 0x58), (0xFFFF, 0xFF)] with p := fl 0 0 0 1 0 0, irqWindow := true }
    s.Inv ∧ step s = .next { s with pc := 0x0601, p := fl 0 0 0 0 0 0, irqWindow := false } :=
  ⟨⟨rfl, fun _ => rfl⟩, rfl⟩

/-- A store to ROM on the board. -/
theorem witness_StepKeepsRomAndPlatform :
    let s := { machine 0x0600 [(0x0600, 0x8D), (0x0602, 0xE0), (0xE000, 0x55)] with a := 0x42, platform := board }
    step s = .next { s with pc := 0x0603 } ∧ s.platform.kindAt 0xE000 ≠ .ram ∧ s.platform.kindAt 0xFFFF ≠ .ram ∧
    s.platform.kindAt 0xD000 ≠ .ram ∧ s.platform.kindAt 0x4FFF ≠ .ram := ⟨rfl, by decide⟩

theorem witness_RegisterWriters :
    exec .nop (machine 0xFFFF []) = .next (machine 0x0000 []) ∧
    Instr.nop.mnemonic ∉ [Mnemonic.adc, .andA, .eor, .lda, .ora, .pla, .sbc, .txa, .tya] ∧
    Instr.nop.operand ≠ .accumulator ∧ Instr.nop.mnemonic ∉ [Mnemonic.dex, .inx, .ldx, .tax, .tsx] ∧
    Instr.nop.mnemonic ∉ [Mnemonic.dey, .iny, .ldy, .tay] ∧
    Instr.nop.mnemonic ∉ [Mnemonic.txs, .pha, .php, .jsr, .brk, .pla, .plp, .rts, .rti] := ⟨rfl, by decide⟩

theorem witness_FlagWriters :
    exec .nop (machine 0xFFFF []) = .next (machine 0x0000 []) ∧
    Instr.nop.mnemonic ∉ [Mnemonic.adc, .sbc, .bit, .clv, .plp, .rti] ∧
    (Instr.nop.mnemonic ∉ [Mnemonic.cld, .sed, .plp, .rti] ∧ Instr.nop.mnemonic ≠ .brk) ∧
    (Instr.brk.mnemonic ∉ [Mnemonic.cld, .sed, .plp, .rti] ∧ (machine 0xFFFF []).platform.intClearsD = false) ∧
    Instr.nop.mnemonic ∉ [Mnemonic.cli, .sei, .plp, .rti, .brk] ∧
    Instr.nop.mnemonic ∉ [Mnemonic.adc, .sbc, .asl, .rol, .ror, .lsr, .cmp, .cpx, .cpy, .plp, .rti, .clc, .sec] ∧
    Instr.nop.mnemonic ∉ [Mnemonic.adc, .sbc, .andA, .eor, .ora, .bit, .asl, .rol, .ror, .lsr, .cmp, .cpx, .cpy, .dec, .dex,
      .dey, .inc, .inx, .iny, .lda, .ldx, .ldy, .tax, .tay, .tsx, .txa, .tya, .pla, .plp, .rti] ∧
    Instr.nop.mnemonic ∈ [Mnemonic.bcc, .bcs, .beq, .bmi, .bne, .bpl, .bvc, .bvs, .jmp, .jsr, .rts, .nop, .pha, .php, .sta,
      .stx, .sty, .txs] := ⟨rfl, by decide⟩

theorem witness_SequentialPc :
    exec .nop (machine 0xFFFF []) = .next (machine 0x0000 []) ∧
    Instr.nop.mnemonic ∉ [Mnemonic.bcc, .bcs, .beq, .bmi, .bne, .bpl, .bvc, .bvs, .jmp, .jsr, .rts, .brk, .rti] :=
  ⟨rfl, by decide⟩

theorem witness_NonStoringKeepsMemory :
    exec .nop (machine 0xFFFF []) = .next (machine 0x0000 []) ∧
    Instr.nop.mnemonic ∉ [Mnemonic.sta, .stx, .sty, .asl, .lsr, .rol, .ror, .inc, .dec, .pha, .php, .jsr, .brk] ∧
    exec .aslAccumulator (machine 0x0600 []) = .next { machine 0x0601 [] with p := fl 0 0 0 0 1 0 } ∧
    Instr.aslAccumulator.operand = .accumulator := ⟨rfl, by decide, rfl, rfl⟩

/-- The four kinds of address, at both ends of their ranges. -/
theorem witness_MemoryMap :
    let s := { machine 0x0600 [] with platform := board, answers := [0x7F] }
    s.ramAt 0x0000 ∧ s.ramAt 0xDFFF ∧ s.platform.kindAt 0xE000 = .rom ∧ s.platform.kindAt 0xFFFF = .rom ∧
    s.platform.kindAt 0xD000 = .device ∧ s.platform.kindAt 0xD0FF = .device ∧ s.answers = [0x7F] ∧
    s.platform.kindAt 0x4000 = .openBus ∧ s.platform.kindAt 0x4FFF = .openBus :=
  ⟨rfl, rfl, rfl, rfl, rfl, rfl, rfl, rfl, rfl⟩

/-- At the addresses where each high byte wraps: 0xFFFF to 0x0000, zero-page 0xFF to 0x00, 0x12FF to 0x1200. -/
theorem witness_SixteenBitReads :
    let s := { machine 0x0600 [] with platform := ⟨[⟨0xE000, 0xFFFF, .rom⟩], true, false, .nmos⟩ }
    s.memoryAt 0xFFFF ∧ s.memoryAt (BitVec.ofNat 16 (((0xFFFF : Word).toNat + 1) % 65536)) ∧
    s.memoryAt (BitVec.ofNat 16 (0xFF : Byte).toNat) ∧ s.memoryAt (BitVec.ofNat 16 (((0xFF : Byte).toNat + 1) % 256)) ∧
    s.memoryAt (BitVec.ofNat 16 ((0xFFFF : Word).toNat / 256 * 256 + ((0xFFFF : Word).toNat + 1) % 256)) :=
  ⟨rfl, rfl, rfl, rfl, rfl⟩

theorem witness_PushAndPull :
    let s := { machine 0x0600 [] with s := 0x00 }
    s.memoryAt (stackAddr (s.s + 1)) ∧ s.ramAt (stackAddr s.s) ∧
    { s with s := 0xFF }.memoryAt (stackAddr (0xFF + 1)) := ⟨rfl, rfl, rfl⟩

theorem witness_EffectiveAddresses : ∀ b, (machine 0x0600 []).memoryAt b := fun _ => rfl

theorem witness_AddDecOnEveryOperand :
    (isBcd 0x99 ∧ isBcd 0x00) ∧
    (let s := { machine 0x0600 [] with p := fl 0 0 1 0 0 0, platform := decimalRefused }
     (Instr.adcImmediate 0x01).mnemonic = .adc ∧ s.p.d = true ∧ s.platform.decimalMode = .refuse) := by unfold isBcd; decide

theorem witness_SubDecOnEveryOperand :
    (isBcd 0x00 ∧ isBcd 0x99) ∧
    (let s := { machine 0x0600 [] with p := fl 0 0 1 0 0 0, platform := decimalRefused }
     (Instr.sbcImmediate 0x01).mnemonic = .sbc ∧ s.p.d = true ∧ s.platform.decimalMode = .refuse) := by unfold isBcd; decide

theorem witness_AdcAddsMemoryAndCarry :
    let s := { machine 0x0600 [] with p := fl 0 0 1 0 0 0 }
    let t := { machine 0x0600 [] with platform := decimalRefused }
    (Instr.adcImmediate 0xFF).mnemonic = .adc ∧ (Instr.adcIndirectY 0xFF).mnemonic = .adc ∧
    (s.p.d = true ∧ s.platform.decimalMode = .nmos) ∧ t.p.d = false := by decide

theorem witness_SbcSubtractsWithBorrow :
    let s := { machine 0x0600 [] with p := fl 0 0 1 0 0 0 }
    let t := { machine 0x0600 [] with platform := decimalRefused }
    (Instr.sbcImmediate 0x00).mnemonic = .sbc ∧ (Instr.sbcIndirectX 0xFF).mnemonic = .sbc ∧
    (s.p.d = true ∧ s.platform.decimalMode = .nmos) ∧ t.p.d = false := by decide

theorem witness_ComparesWriteThreeFlags :
    ((Instr.cmpImmediate 0).mnemonic, State.reset.a) = (.cmp, State.reset.a) ∧
    ((Instr.cpxAbsolute 0).mnemonic, State.reset.x) = (.cpx, State.reset.x) ∧
    ((Instr.cpyAbsolute 0).mnemonic, State.reset.y) = (.cpy, State.reset.y) := by decide

theorem witness_LogicWritesAccumulator :
    (Instr.andIndirectY 0).mnemonic = .andA ∧ (Instr.eorImmediate 0xFF).mnemonic = .eor ∧
    (Instr.oraAbsoluteX 0).mnemonic = .ora := by decide

theorem witness_BitTestsMemory : (Instr.bitAbsolute 0xFFFF).mnemonic = .bit ∧ (Instr.bitZeroPage 0).mnemonic = .bit := by decide

theorem witness_AslShiftsLeft : Instr.aslAccumulator.mnemonic = .asl ∧ (Instr.aslAbsoluteX 0).mnemonic = .asl := by decide

theorem witness_LsrShiftsRight : Instr.lsrAccumulator.mnemonic = .lsr ∧ (Instr.lsrZeroPageX 0).mnemonic = .lsr := by decide

theorem witness_RolRotatesLeft : Instr.rolAccumulator.mnemonic = .rol ∧ (Instr.rolAbsolute 0).mnemonic = .rol := by decide

theorem witness_RorRotatesRight : Instr.rorAccumulator.mnemonic = .ror ∧ (Instr.rorZeroPage 0).mnemonic = .ror := by decide

/-- Each branch, on a state where it is taken or not. -/
theorem witness_BranchesMovePcOnly :
    let p := (machine 0xFFF0 []).p
    (∀ i ∈ [Instr.bcc 0x7F, .bcs 0x80, .beq 0xFE, .bmi 0x00, .bne 0xFF, .bpl 0x7F, .bvc 0x80, .bvs 0xFE],
      ∃ op cond, (i.mnemonic, op, cond) ∈
        [(Mnemonic.bcc, (0x90 : Byte), !p.c), (.bcs, 0xB0, p.c), (.beq, 0xF0, p.z), (.bmi, 0x30, p.n), (.bne, 0xD0, !p.z),
         (.bpl, 0x10, !p.n), (.bvc, 0x50, !p.v), (.bvs, 0x70, p.v)]) := by
  intro p i hi
  simp only [List.mem_cons, List.not_mem_nil, or_false] at hi
  rcases hi with rfl | rfl | rfl | rfl | rfl | rfl | rfl | rfl
  · exact ⟨0x90, !p.c, by decide⟩
  · exact ⟨0xB0, p.c, by decide⟩
  · exact ⟨0xF0, p.z, by decide⟩
  · exact ⟨0x30, p.n, by decide⟩
  · exact ⟨0xD0, !p.z, by decide⟩
  · exact ⟨0x10, !p.n, by decide⟩
  · exact ⟨0x50, !p.v, by decide⟩
  · exact ⟨0x70, p.v, by decide⟩

theorem witness_DecIncMemory :
    ((Instr.decAbsoluteX 0xFFFF).mnemonic, 255) = (.dec, 255) ∧ ((Instr.incZeroPage 0xFF).mnemonic, 1) = (.inc, 1) := by decide

/-- Both variants of the pointer, over memory. -/
theorem witness_JumpSetsPc :
    let s := machine 0x0600 []
    let t := { s with platform := ⟨[], false, false, .nmos⟩ }
    (∀ b, s.memoryAt b) ∧ s.platform.jmpIndPageWrap = true ∧ (∀ b, t.memoryAt b) ∧ t.platform.jmpIndPageWrap = false :=
  ⟨fun _ => rfl, rfl, fun _ => rfl, rfl⟩

theorem witness_RtsReturns :
    let s := { machine 0x0600 [] with s := 0xFE }
    s.memoryAt (stackAddr (s.s + 1)) ∧ s.memoryAt (stackAddr (s.s + 2)) := ⟨rfl, rfl⟩

/-- S = 0x00: the second byte pushed wraps to 0x01FF. -/
theorem witness_JsrThenRts :
    let s := { machine 0x0600 [] with s := 0x00 }
    let t := jumpSubroutine 0x8000 s
    s.ramAt (stackAddr s.s) ∧ s.ramAt (stackAddr (s.s - 1)) ∧ exec (.jsr 0x8000) s = .next t ∧ t.s = t.s ∧
    t.platform = s.platform ∧ t.byteAt (stackAddr s.s) = t.byteAt (stackAddr s.s) ∧
    t.byteAt (stackAddr (s.s - 1)) = t.byteAt (stackAddr (s.s - 1)) := ⟨rfl, rfl, rfl, rfl, rfl, rfl, rfl⟩

theorem witness_LoadsWriteOneRegister :
    (Instr.ldaIndirectY 0xFF).mnemonic ∈ [Mnemonic.lda, .ldx, .ldy] ∧ (Instr.ldxZeroPageY 0).mnemonic = .ldx ∧
    (Instr.ldyAbsoluteX 0).mnemonic = .ldy ∧ (Instr.ldaIndirectY 0xFF).mnemonic = .lda := by decide

theorem witness_StoresWriteOneByte :
    (Instr.staIndirectY 0xFF).mnemonic = .sta ∧ (Instr.stxZeroPageY 0xFF).mnemonic = .stx ∧
    (Instr.styAbsolute 0xFFFF).mnemonic = .sty := by decide

theorem witness_PushesWriteOneByte :
    let s := { machine 0x0600 [] with s := 0x00, a := 0x43, p := fl 1 1 1 1 1 1 }
    (Instr.pha, (0x48 : Byte), s.a) ∈ [(Instr.pha, (0x48 : Byte), s.a), (.php, 0x08, 0xFF)] ∧
    (0xFF : Byte) = BitVec.ofNat 8 (s.p.n.toNat * 128 + s.p.v.toNat * 64 + 32 + 16 + s.p.d.toNat * 8 + s.p.i.toNat * 4 +
      s.p.z.toNat * 2 + s.p.c.toNat) := by decide

theorem witness_PlaPullsAccumulator :
    let s := { machine 0x0600 [] with s := 0xFF }
    s.memoryAt (stackAddr (s.s + 1)) := rfl

theorem witness_PlpPullsFlags :
    let s := { machine 0x0600 [] with s := 0xFE, platform := ⟨[⟨0x0100, 0x01FF, .rom⟩], true, false, .nmos⟩ }
    s.memoryAt (stackAddr (s.s + 1)) := rfl

theorem witness_PushThenPull :
    let s := { machine 0x0600 [] with s := 0x00 }
    s.ramAt (stackAddr s.s) := rfl

theorem witness_RtiReturns :
    let s := { machine 0x0600 [] with s := 0xFE }
    s.memoryAt (stackAddr (s.s + 1)) ∧ s.memoryAt (stackAddr (s.s + 2)) ∧ s.memoryAt (stackAddr (s.s + 3)) :=
  ⟨rfl, rfl, rfl⟩

/-- S = 0x01: the third byte pushed wraps to 0x01FF. -/
theorem witness_InterruptThenRti :
    let s := { machine 0x0650 [(0xFFFF, 0x90)] with s := 0x01, p := fl 1 0 1 0 1 0 }
    let u := s.interrupt 0xFFFE false 0x0650
    s.ramAt (stackAddr s.s) ∧ s.ramAt (stackAddr (s.s - 1)) ∧ s.ramAt (stackAddr (s.s - 2)) ∧ u.platform = s.platform ∧
    u.s = 0xFE := ⟨rfl, rfl, rfl, rfl, rfl⟩

end Sys2Proof.Tests
end

section
/-! PROOFS. The scope of the machine (00_scope.md): which bytes are opcodes and what a fetch reads, the outcomes of a step
and its only refusals (R6, R10), the instruction a step runs (R10, R104), and the end of a run (R11). -/

namespace Sys2Proof.Machine

open Sys2Proof

/-! ### Opcodes and instruction lengths (30_encoding.md R81, R100) -/

/-- The bytes that select no row are those of R100's list. -/
theorem formOf_eq_none_iff : ∀ op : Byte, formOf op = none ↔ op.toNat ∈ undefinedOpcodes := by
  have key : ∀ op : Byte, (formOf op).isNone = decide (op.toNat ∈ undefinedOpcodes) := by decide
  intro op
  rw [← Option.isNone_iff_eq_none, key op, decide_eq_true_iff]

/-- The instructions a row makes have the length of the row's format (30_encoding.md R81: F1, F2, F3). -/
def FormFitsLength : Form → Prop
  | .bare i => i.length = 1
  | .withByte f => ∀ b, (f b).length = 2
  | .withWord f => ∀ w, (f w).length = 3

theorem opcodeGrid_fitsLength : ∀ rows ∈ opcodeGrid, ∀ row ∈ rows, FormFitsLength row.2 := by
  simp only [opcodeGrid, opcodes0x, opcodes1x, opcodes2x, opcodes3x, opcodes4x, opcodes5x, opcodes6x, opcodes7x,
    opcodes8x, opcodes9x, opcodesAx, opcodesBx, opcodesCx, opcodesDx, opcodesEx, opcodesFx, List.forall_mem_cons,
    FormFitsLength, List.not_mem_nil, false_implies, implies_true, and_true]
  and_intros <;> intros <;> rfl

theorem mem_of_findRow {op : Nat} {rows : List (Nat × Form)} {f : Form} (h : findRow op rows = some f) :
    (op, f) ∈ rows := by
  induction rows with
  | nil => cases h
  | cons row rest ih =>
    obtain ⟨k, g⟩ := row
    simp only [findRow] at h
    split at h
    · next hk =>
      cases h
      simp [hk]
    · exact List.mem_cons_of_mem _ (ih h)

theorem formOf_fitsLength {op : Byte} {f : Form} (h : formOf op = some f) : FormFitsLength f := by
  have hrow := mem_of_findRow h
  by_cases hi : op.toNat / 16 < opcodeGrid.length
  · rw [List.getD_eq_getElem _ _ hi] at hrow
    exact opcodeGrid_fitsLength _ (List.getElem_mem hi) _ hrow
  · rw [List.getD_eq_default _ _ (by omega)] at hrow
    cases hrow

/-! ### Fetching (30_encoding.md R104) -/

@[simp] theorem fetch_byte0 (s : State) : s.fetch.byte0 = (s.busRead s.pc).1 := by
  simp only [State.fetch]
  split <;> rfl

theorem fetch_instr_eq_none_iff (s : State) : s.fetch.instr = none ↔ formOf (s.busRead s.pc).1 = none := by
  simp only [State.fetch]
  split <;> simp [*]

/-- From memory, a fetch reads the instruction that the bytes at PC decode to, and leaves the state as it is. -/
theorem fetch_of_decode {s : State} {i : Instr} {rest : List Byte}
    (hmem : ∀ k < i.length, s.memoryAt (s.pc + BitVec.ofNat 16 k))
    (hdec : decode [s.byteAt s.pc, s.byteAt (s.pc + 1), s.byteAt (s.pc + 2)] = .ok (i, rest)) :
    s.fetch = ⟨s.byteAt s.pc, some i, s⟩ := by
  cases hform : formOf (s.byteAt s.pc) with
  | none => simp [decode, hform] at hdec
  | some form =>
    have hlen := formOf_fitsLength hform
    have read0 (hpos : 0 < i.length) : s.busRead s.pc = (s.byteAt s.pc, s) :=
      busRead_of_isMemory (by simpa [State.memoryAt] using hmem 0 hpos)
    cases form with
    | bare j =>
      obtain ⟨rfl, -⟩ : j = i ∧ _ := by simpa [decode, hform] using hdec
      have hj : j.length = 1 := hlen
      simp [State.fetch, read0 (by omega), hform]
    | withByte f =>
      obtain ⟨rfl, -⟩ : f (s.byteAt (s.pc + 1)) = i ∧ _ := by simpa [decode, hform] using hdec
      have hf := hlen (s.byteAt (s.pc + 1))
      have read1 := busRead_of_isMemory (hmem 1 (by omega))
      simp [State.fetch, read0 (by omega), hform, read1]
    | withWord f =>
      obtain ⟨rfl, -⟩ : f (joinBytes (s.byteAt (s.pc + 2)) (s.byteAt (s.pc + 1))) = i ∧ _ := by
        simpa [decode, hform] using hdec
      have hf := hlen (joinBytes (s.byteAt (s.pc + 2)) (s.byteAt (s.pc + 1)))
      have read12 := readPair_of_isMemory (s := s) (hmem 1 (by omega)) (hmem 2 (by omega))
      simp [State.fetch, read0 (by omega), hform, read12]

/-! ### The boundary and the instruction a step runs (00_scope.md R10) -/

/-- With no input given, a boundary changes nothing. -/
theorem latched_of_inputs_nil {s : State} (h : s.inputs = []) : s.latched = s := by
  cases s
  subst h
  simp [State.latched, State.input, StepInput.quiet]

theorem step_of_instruction {s : State} (h : s.action = .instruction) : step s = runNext s.latched := by
  simp [step, h]

theorem runNext_of_fetch {s t : State} {b : Byte} {i : Instr} (h : s.fetch = ⟨b, some i, t⟩) :
    runNext s = runInstr i t := by
  simp [runNext, h]

theorem runInstr_of_exec_next {i : Instr} {s t : State} (h : exec i s = .next t) :
    runInstr i s = .next (t.setIrqWindow (opensIrqWindow i && !s.p.i && t.p.i)) := by
  simp [runInstr, h]

theorem runInstr_of_exec_refused {i : Instr} {s : State} {r : Refusal} (h : exec i s = .refused r) :
    runInstr i s = .refused r := by
  simp [runInstr, h]

theorem sei_form {i : Instr} (h : i.mnemonic = .sei) : i = .sei := by
  cases i with
  | sei => rfl
  | _ => nomatch h

theorem plp_form {i : Instr} (h : i.mnemonic = .plp) : i = .plp := by
  cases i with
  | plp => rfl
  | _ => nomatch h

/-- R221 admits a late IRQ after SEI and PLP only. -/
theorem opensIrqWindow_eq (i : Instr) : opensIrqWindow i = (i == .sei || i == .plp) := by
  have hsei : i.mnemonic = .sei ↔ i = .sei := ⟨sei_form, fun h => h ▸ rfl⟩
  have hplp : i.mnemonic = .plp ↔ i = .plp := ⟨plp_form, fun h => h ▸ rfl⟩
  rw [Bool.eq_iff_iff]
  simp [opensIrqWindow, hsei, hplp]

/-! ### The outcomes of a step (00_scope.md R6, R10) -/

/-- The two points at which the instruction at PC is refused. -/
theorem runNext_refused {s : State} {r : Refusal} (h : runNext s = .refused r) :
    (s.busRead s.pc).1.toNat ∈ undefinedOpcodes ∧ r = .undefinedOpcode (s.busRead s.pc).1 s.pc ∨
      s.refusesDecimal = true ∧ r = .decimalMode := by
  obtain ⟨-, -, -, -, -, hp, -, -, -, hplatform, -⟩ := fetch_frame s
  simp only [runNext, fetch_byte0] at h
  split at h
  · next hnone =>
    cases h
    exact .inl ⟨(formOf_eq_none_iff _).1 ((fetch_instr_eq_none_iff s).1 hnone), rfl⟩
  · next i _ =>
    obtain ⟨t, ht, -⟩ | ⟨-, hd, hr⟩ := exec_meaning i s.fetch.state
    · cases (runInstr_of_exec_next ht).symm.trans h
    · cases (runInstr_of_exec_refused hr).symm.trans h
      exact .inr ⟨by simpa [State.refusesDecimal, hp, hplatform] using hd, rfl⟩

/-- Reset, NMI and IRQ are never refused: a refused step is one whose instruction is. -/
theorem step_refused {s : State} {r : Refusal} (h : step s = .refused r) :
    s.action = .instruction ∧ runNext s.latched = .refused r := by
  cases ha : s.action <;> simp only [step, ha] at h
  case instruction => exact ⟨rfl, h⟩
  all_goals cases h

/-- A step goes on or is refused: there is no fault. -/
theorem step_next_or_refused (s : State) : (∃ t, step s = .next t) ∨ ∃ r, step s = .refused r := by
  cases h : step s with
  | next t => exact .inl ⟨t, rfl⟩
  | fault r => cases r
  | refused r => exact .inr ⟨r, rfl⟩

theorem exec_arith_refused {i : Instr} {s : State} (hm : i.mnemonic ∈ [.adc, .sbc]) (hd : s.refusesDecimal = true) :
    exec i s = .refused .decimalMode := by
  simp only [List.mem_cons, List.not_mem_nil, or_false] at hm
  obtain hm | hm := hm
  · obtain ⟨src, -, -, hexec, -⟩ := adc_forms s hm
    exact hexec.trans (unlessDecimalRefused_refused _ hd)
  · obtain ⟨src, -, -, hexec, -⟩ := sbc_forms s hm
    exact hexec.trans (unlessDecimalRefused_refused _ hd)

/-- An instruction is refused for decimal mode exactly if it is an ADC or SBC where the platform refuses decimal mode. -/
theorem exec_eq_refused_decimalMode_iff (i : Instr) (s : State) :
    exec i s = .refused .decimalMode ↔ i.mnemonic ∈ [.adc, .sbc] ∧ s.refusesDecimal = true := by
  constructor
  · intro h
    obtain ⟨t, ht, -⟩ | ⟨hm, hd, -⟩ := exec_meaning i s
    · cases ht.symm.trans h
    · exact ⟨hm, hd⟩
  · rintro ⟨hm, hd⟩
    exact exec_arith_refused hm hd

/-- Settles O7: a fault has no constructor, and a refusal comes from the fetch or from the instruction run. -/
theorem onlyTwoRefusalPoints : Obligations.OnlyTwoRefusalPoints := by
  refine ⟨fun _ r => (nomatch r), fun s r h => ?_, fun i s => ?_⟩
  · obtain ⟨ha, hrun⟩ := step_refused h
    obtain hop | ⟨hrefuses, hr⟩ := runNext_refused hrun
    · exact ⟨ha, .inl hop⟩
    · obtain ⟨hd, hmode⟩ := (refusesDecimal_iff s.latched).1 hrefuses
      exact ⟨ha, .inr ⟨hd, hmode, hr⟩⟩
  · rw [exec_eq_refused_decimalMode_iff, refusesDecimal_iff]

/-- Settles O6: the fetch from memory gives the instruction the bytes decode to. -/
theorem stepRunsDecodedInstruction : Obligations.StepRunsDecodedInstruction := by
  intro s i rest ha hmem hdec
  have hstep : step s = runInstr i s.latched :=
    (step_of_instruction ha).trans (runNext_of_fetch (fetch_of_decode (s := s.latched) hmem hdec))
  refine ⟨hstep, fun t ht => ?_, latched_of_inputs_nil⟩
  rw [hstep, runInstr_of_exec_next ht, opensIrqWindow_eq]
  rfl

/-! ### The end of a run (00_scope.md R11, 92 D15) -/

/-- None of the first `n` states from `s` on has PC at `stop`. -/
def State.AwayFor (stop : Word) (n : Nat) (s : State) : Prop := ∀ j < n, ∀ u : State, core.run j s = .next u → u.pc ≠ stop

/-- `t` is the state `k` steps from `s`, and the first that has PC at `stop`. -/
def State.Arrives (stop : Word) (k : Nat) (s t : State) : Prop :=
  core.run k s = .next t ∧ t.pc = stop ∧ s.AwayFor stop k

theorem core_run_zero_iff (s t : State) : core.run 0 s = .next t ↔ s = t :=
  ⟨fun h => by cases h; rfl, fun h => h ▸ rfl⟩

@[simp] theorem awayFor_zero (stop : Word) (s : State) : s.AwayFor stop 0 := fun _ hj => absurd hj (Nat.not_lt_zero _)

theorem pc_ne_of_awayFor_succ {stop : Word} {n : Nat} {s : State} (h : s.AwayFor stop (n + 1)) : s.pc ≠ stop :=
  h 0 (Nat.succ_pos n) s rfl

theorem awayFor_one {stop : Word} {s : State} (h : s.pc ≠ stop) : s.AwayFor stop 1 := by
  intro j hj u hu
  obtain rfl : j = 0 := by omega
  cases hu
  exact h

theorem awayFor_succ_of_next {stop : Word} {s s' : State} (n : Nat) (h : s.pc ≠ stop) (hs : step s = .next s') :
    s.AwayFor stop (n + 1) ↔ s'.AwayFor stop n := by
  constructor
  · intro haway j hj u hu
    exact haway (j + 1) (by omega) u ((core_run_next j hs).trans hu)
  · intro haway j hj u hu
    cases j with
    | zero => exact awayFor_one h 0 Nat.one_pos u hu
    | succ j => exact haway j (by omega) u ((core_run_next j hs).symm.trans hu)

/-- A run that is at the stated address has arrived, after no steps. -/
theorem arrives_at_stop {stop : Word} {k : Nat} {s t : State} (h : s.pc = stop) : s.Arrives stop k t ↔ k = 0 ∧ s = t := by
  constructor
  · rintro ⟨hrun, -, haway⟩
    cases k with
    | zero =>
      cases hrun
      exact ⟨rfl, rfl⟩
    | succ k => exact absurd h (pc_ne_of_awayFor_succ haway)
  · rintro ⟨rfl, rfl⟩
    exact ⟨rfl, h, awayFor_zero stop s⟩

theorem not_arrives_zero {stop : Word} {s t : State} (h : s.pc ≠ stop) : ¬ s.Arrives stop 0 t := by
  rintro ⟨hrun, hpc, -⟩
  cases hrun
  exact h hpc

theorem arrives_succ_of_next {stop : Word} {s s' t : State} (k : Nat) (h : s.pc ≠ stop) (hs : step s = .next s') :
    s.Arrives stop (k + 1) t ↔ s'.Arrives stop k t := by
  unfold State.Arrives
  rw [core_run_next k hs, awayFor_succ_of_next k h hs]

theorem not_arrives_succ_of_refused {stop : Word} {s t : State} {r : Refusal} (k : Nat) (hs : step s = .refused r) :
    ¬ s.Arrives stop (k + 1) t := by
  rintro ⟨hrun, -, -⟩
  cases (core_run_refused k hs).symm.trans hrun

/-- Away from the stated address, the bounded arrivals from `s` are those from its next state, one step later. -/
theorem exists_arrives_succ {stop : Word} {s s' t : State} (n : Nat) (h : s.pc ≠ stop) (hs : step s = .next s') :
    (∃ k ≤ n + 1, s.Arrives stop k t) ↔ ∃ k ≤ n, s'.Arrives stop k t := by
  constructor
  · rintro ⟨k, hk, harr⟩
    cases k with
    | zero => exact absurd harr (not_arrives_zero h)
    | succ k => exact ⟨k, by omega, (arrives_succ_of_next k h hs).1 harr⟩
  · rintro ⟨k, hk, harr⟩
    exact ⟨k + 1, by omega, (arrives_succ_of_next k h hs).2 harr⟩

theorem runTo_eq_ended_iff (stop : Word) (n : Nat) (s t : State) :
    s.runTo stop n = .ended t ↔ ∃ k ≤ n, s.Arrives stop k t := by
  induction n generalizing s with
  | zero =>
    by_cases h : s.pc = stop
    · simp [runTo_at_stop, h, arrives_at_stop]
    · simp [runTo_zero h, not_arrives_zero h]
  | succ n ih =>
    by_cases h : s.pc = stop
    · simp [runTo_at_stop, h, arrives_at_stop]
    · obtain ⟨s', hs⟩ | ⟨r, hs⟩ := step_next_or_refused s
      · rw [runTo_next n h hs, ih, exists_arrives_succ n h hs]
      · rw [runTo_refused n h hs]
        refine iff_of_false nofun ?_
        rintro ⟨k, -, harr⟩
        cases k with
        | zero => exact not_arrives_zero h harr
        | succ k => exact not_arrives_succ_of_refused k hs harr

theorem runTo_eq_unfinished_iff (stop : Word) (n : Nat) (s t : State) :
    s.runTo stop n = .unfinished t ↔ core.run n s = .next t ∧ s.AwayFor stop (n + 1) := by
  induction n generalizing s with
  | zero =>
    by_cases h : s.pc = stop
    · rw [runTo_at_stop 0 h]
      exact iff_of_false nofun fun ⟨_, haway⟩ => pc_ne_of_awayFor_succ haway h
    · simp [runTo_zero h, core_run_zero_iff, awayFor_one h]
  | succ n ih =>
    by_cases h : s.pc = stop
    · rw [runTo_at_stop (n + 1) h]
      exact iff_of_false nofun fun ⟨_, haway⟩ => pc_ne_of_awayFor_succ haway h
    · obtain ⟨s', hs⟩ | ⟨r, hs⟩ := step_next_or_refused s
      · rw [runTo_next n h hs, ih, core_run_next n hs, awayFor_succ_of_next (n + 1) h hs]
      · rw [runTo_refused n h hs, core_run_refused n hs]
        exact iff_of_false nofun fun ⟨hrun, _⟩ => nomatch hrun

/-- Settles O8, by induction on the bound of the run. -/
theorem runEndsAtStatedPc : Obligations.RunEndsAtStatedPc := by
  intro stop n s t
  refine ⟨runTo_eq_ended_iff stop n s t, ?_⟩
  rw [runTo_eq_unfinished_iff]
  simp only [State.AwayFor, Nat.lt_succ_iff]

end Sys2Proof.Machine
end

section
/-! PROOFS. The state (10_state.md): which instructions write which register and which flag (R21 to R24, R42), where an
instruction leaves PC (R26, R27), the masked IRQ (R32), the status byte (R36, R37), and the state after reset (R40). -/

namespace Sys2Proof.Machine

open Sys2Proof

/-! ### The flag computations: what each keeps -/

@[simp] theorem setNZ_keeps (v : Byte) (p : Flags) :
    (setNZ v p).v = p.v ∧ (setNZ v p).d = p.d ∧ (setNZ v p).i = p.i ∧ (setNZ v p).c = p.c := ⟨rfl, rfl, rfl, rfl⟩

@[simp] theorem setArith_keeps (r : AluResult) (p : Flags) : (setArith r p).d = p.d ∧ (setArith r p).i = p.i := ⟨rfl, rfl⟩

@[simp] theorem compareFlags_keeps (reg m : Byte) (p : Flags) :
    (compareFlags reg m p).v = p.v ∧ (compareFlags reg m p).d = p.d ∧ (compareFlags reg m p).i = p.i := ⟨rfl, rfl, rfl⟩

@[simp] theorem bitFlags_keeps (a m : Byte) (p : Flags) :
    (bitFlags a m p).d = p.d ∧ (bitFlags a m p).i = p.i ∧ (bitFlags a m p).c = p.c := ⟨rfl, rfl, rfl⟩

@[simp] theorem aslByte_keeps (v : Byte) (p : Flags) :
    (aslByte v p).2.v = p.v ∧ (aslByte v p).2.d = p.d ∧ (aslByte v p).2.i = p.i := ⟨rfl, rfl, rfl⟩

@[simp] theorem lsrByte_keeps (v : Byte) (p : Flags) :
    (lsrByte v p).2.v = p.v ∧ (lsrByte v p).2.d = p.d ∧ (lsrByte v p).2.i = p.i := ⟨rfl, rfl, rfl⟩

@[simp] theorem rolByte_keeps (v : Byte) (p : Flags) :
    (rolByte v p).2.v = p.v ∧ (rolByte v p).2.d = p.d ∧ (rolByte v p).2.i = p.i := ⟨rfl, rfl, rfl⟩

@[simp] theorem rorByte_keeps (v : Byte) (p : Flags) :
    (rorByte v p).2.v = p.v ∧ (rorByte v p).2.d = p.d ∧ (rorByte v p).2.i = p.i := ⟨rfl, rfl, rfl⟩

@[simp] theorem decByte_flags (v : Byte) (p : Flags) : (decByte v p).2 = setNZ (v - 1) p := rfl

@[simp] theorem incByte_flags (v : Byte) (p : Flags) : (incByte v p).2 = setNZ (v + 1) p := rfl

@[simp] theorem entryFlags_keeps (platform : Platform) (p : Flags) :
    (entryFlags platform p).v = p.v ∧ (entryFlags platform p).n = p.n ∧ (entryFlags platform p).z = p.z ∧
      (entryFlags platform p).c = p.c := ⟨rfl, rfl, rfl, rfl⟩

@[simp] theorem entryFlags_d (platform : Platform) (p : Flags) :
    (entryFlags platform p).d = (p.d && !platform.intClearsD) := rfl

/-- The seven flag instructions: each writes its own flag alone (44_flag.md R150 to R156). -/
theorem flagInstr_keeps {mn : Mnemonic} {p q : Flags}
    (h : (mn, q) ∈ [(Mnemonic.clc, { p with c := false }), (.cld, { p with d := false }), (.cli, { p with i := false }),
      (.clv, { p with v := false }), (.sec, { p with c := true }), (.sed, { p with d := true }),
      (.sei, { p with i := true })]) :
    (mn ≠ .clv → q.v = p.v) ∧ (mn ∉ [.cld, .sed] → q.d = p.d) ∧ (mn ∉ [.cli, .sei] → q.i = p.i) ∧
      (mn ∉ [.clc, .sec] → q.c = p.c) ∧ q.n = p.n ∧ q.z = p.z := by
  simp only [List.mem_cons, Prod.mk.injEq, List.not_mem_nil, or_false] at h
  obtain ⟨rfl, rfl⟩ | ⟨rfl, rfl⟩ | ⟨rfl, rfl⟩ | ⟨rfl, rfl⟩ | ⟨rfl, rfl⟩ | ⟨rfl, rfl⟩ | ⟨rfl, rfl⟩ := h <;> simp

theorem flags_ext {p q : Flags} (hn : p.n = q.n) (hv : p.v = q.v) (hd : p.d = q.d) (hi : p.i = q.i) (hz : p.z = q.z)
    (hc : p.c = q.c) : p = q := by
  cases p
  cases q
  simp_all

/-! ### The shared operations: registers, flags and PC after each -/

section arithmetic

variable (src : Source) (s : State)

@[simp] theorem adc_registers :
    (adc src s).a = (addByMode s.p.d s.a (src.load s).1 s.p.c).r ∧ (adc src s).x = s.x ∧ (adc src s).y = s.y ∧
      (adc src s).s = s.s ∧ (adc src s).p = setArith (addByMode s.p.d s.a (src.load s).1 s.p.c) s.p ∧
      (adc src s).pc = s.pc + BitVec.ofNat 16 src.length := by simp [adc]

@[simp] theorem sbc_registers :
    (sbc src s).a = (subByMode s.p.d s.a (src.load s).1 s.p.c).r ∧ (sbc src s).x = s.x ∧ (sbc src s).y = s.y ∧
      (sbc src s).s = s.s ∧ (sbc src s).p = setArith (subByMode s.p.d s.a (src.load s).1 s.p.c) s.p ∧
      (sbc src s).pc = s.pc + BitVec.ofNat 16 src.length := by simp [sbc]

@[simp] theorem compareWith_registers (reg : Byte) :
    (compareWith reg src s).a = s.a ∧ (compareWith reg src s).x = s.x ∧ (compareWith reg src s).y = s.y ∧
      (compareWith reg src s).s = s.s ∧ (compareWith reg src s).p = compareFlags reg (src.load s).1 s.p ∧
      (compareWith reg src s).pc = s.pc + BitVec.ofNat 16 src.length := by simp [compareWith]

@[simp] theorem logic_registers (op : Byte → Byte → Byte) :
    (logic op src s).a = op s.a (src.load s).1 ∧ (logic op src s).x = s.x ∧ (logic op src s).y = s.y ∧
      (logic op src s).s = s.s ∧ (logic op src s).p = setNZ (op s.a (src.load s).1) s.p ∧
      (logic op src s).pc = s.pc + BitVec.ofNat 16 src.length := by simp [logic]

@[simp] theorem bitTest_registers (m : MemMode) :
    (bitTest m s).a = s.a ∧ (bitTest m s).x = s.x ∧ (bitTest m s).y = s.y ∧ (bitTest m s).s = s.s ∧
      (bitTest m s).p = bitFlags s.a (m.load s).1 s.p ∧ (bitTest m s).pc = s.pc + BitVec.ofNat 16 m.length := by
  simp [bitTest]

end arithmetic

section readModifyWrite

variable (f : Byte → Flags → Byte × Flags) (s : State)

@[simp] theorem shift_registers (target : Target) :
    (shift f target s).x = s.x ∧ (shift f target s).y = s.y ∧ (shift f target s).s = s.s ∧
      (shift f target s).p = (f (targetValue target s) s.p).2 ∧
      (shift f target s).pc = s.pc + BitVec.ofNat 16 target.length := by
  cases target with
  | accumulator => simp [shift, Target.modify, targetValue]
  | memory m => simp [shift, Target.modify, targetValue, modify_p]

/-- A shift of memory keeps A. -/
theorem shift_a {target : Target} (h : target.operand ≠ .accumulator) : (shift f target s).a = s.a := by
  cases target with
  | accumulator => exact absurd rfl h
  | memory m => simp [shift, Target.modify]

@[simp] theorem step1Memory_registers (m : MemMode) :
    (step1Memory f m s).a = s.a ∧ (step1Memory f m s).x = s.x ∧ (step1Memory f m s).y = s.y ∧
      (step1Memory f m s).s = s.s ∧ (step1Memory f m s).p = (f (m.load s).1 s.p).2 ∧
      (step1Memory f m s).pc = s.pc + BitVec.ofNat 16 m.length := by simp [step1Memory, modify_p]

end readModifyWrite

section oneByte

variable (v : Byte) (s : State)

@[simp] theorem flagOp_registers (p : Flags) :
    (flagOp p s).a = s.a ∧ (flagOp p s).x = s.x ∧ (flagOp p s).y = s.y ∧ (flagOp p s).s = s.s ∧ (flagOp p s).p = p ∧
      (flagOp p s).pc = s.pc + 1 := by simp [flagOp]

@[simp] theorem countX_registers :
    (countX v s).a = s.a ∧ (countX v s).x = v ∧ (countX v s).y = s.y ∧ (countX v s).s = s.s ∧
      (countX v s).p = setNZ v s.p ∧ (countX v s).pc = s.pc + 1 := by simp [countX]

@[simp] theorem countY_registers :
    (countY v s).a = s.a ∧ (countY v s).x = s.x ∧ (countY v s).y = v ∧ (countY v s).s = s.s ∧
      (countY v s).p = setNZ v s.p ∧ (countY v s).pc = s.pc + 1 := by simp [countY]

@[simp] theorem pushByte_registers :
    (pushByte v s).a = s.a ∧ (pushByte v s).x = s.x ∧ (pushByte v s).y = s.y ∧ (pushByte v s).s = s.s - 1 ∧
      (pushByte v s).p = s.p ∧ (pushByte v s).pc = s.pc + 1 := by simp [pushByte]

@[simp] theorem pullA_registers :
    (pullA s).a = s.pull.1 ∧ (pullA s).x = s.x ∧ (pullA s).y = s.y ∧ (pullA s).s = s.s + 1 ∧
      (pullA s).p = setNZ s.pull.1 s.p ∧ (pullA s).pc = s.pc + 1 := by simp [pullA]

@[simp] theorem pullP_registers :
    (pullP s).a = s.a ∧ (pullP s).x = s.x ∧ (pullP s).y = s.y ∧ (pullP s).s = s.s + 1 ∧
      (pullP s).p = unpackP s.pull.1 ∧ (pullP s).pc = s.pc + 1 := by simp [pullP]

@[simp] theorem transferToA_registers :
    (transferToA v s).a = v ∧ (transferToA v s).x = s.x ∧ (transferToA v s).y = s.y ∧ (transferToA v s).s = s.s ∧
      (transferToA v s).p = setNZ v s.p ∧ (transferToA v s).pc = s.pc + 1 := by simp [transferToA]

@[simp] theorem transferToX_registers :
    (transferToX v s).a = s.a ∧ (transferToX v s).x = v ∧ (transferToX v s).y = s.y ∧ (transferToX v s).s = s.s ∧
      (transferToX v s).p = setNZ v s.p ∧ (transferToX v s).pc = s.pc + 1 := by simp [transferToX]

@[simp] theorem transferToY_registers :
    (transferToY v s).a = s.a ∧ (transferToY v s).x = s.x ∧ (transferToY v s).y = v ∧ (transferToY v s).s = s.s ∧
      (transferToY v s).p = setNZ v s.p ∧ (transferToY v s).pc = s.pc + 1 := by simp [transferToY]

end oneByte

section loadStore

variable (src : Source) (s : State)

@[simp] theorem loadA_registers :
    (loadA src s).a = (src.load s).1 ∧ (loadA src s).x = s.x ∧ (loadA src s).y = s.y ∧ (loadA src s).s = s.s ∧
      (loadA src s).p = setNZ (src.load s).1 s.p ∧ (loadA src s).pc = s.pc + BitVec.ofNat 16 src.length := by
  simp [loadA]

@[simp] theorem loadX_registers :
    (loadX src s).a = s.a ∧ (loadX src s).x = (src.load s).1 ∧ (loadX src s).y = s.y ∧ (loadX src s).s = s.s ∧
      (loadX src s).p = setNZ (src.load s).1 s.p ∧ (loadX src s).pc = s.pc + BitVec.ofNat 16 src.length := by
  simp [loadX]

@[simp] theorem loadY_registers :
    (loadY src s).a = s.a ∧ (loadY src s).x = s.x ∧ (loadY src s).y = (src.load s).1 ∧ (loadY src s).s = s.s ∧
      (loadY src s).p = setNZ (src.load s).1 s.p ∧ (loadY src s).pc = s.pc + BitVec.ofNat 16 src.length := by
  simp [loadY]

@[simp] theorem storeByte_registers (v : Byte) (m : MemMode) :
    (storeByte v m s).a = s.a ∧ (storeByte v m s).x = s.x ∧ (storeByte v m s).y = s.y ∧ (storeByte v m s).s = s.s ∧
      (storeByte v m s).p = s.p ∧ (storeByte v m s).pc = s.pc + BitVec.ofNat 16 m.length := by simp [storeByte]

end loadStore

section control

variable (s : State)

@[simp] theorem branch_registers (cond : Bool) (disp : Byte) :
    (branch cond disp s).a = s.a ∧ (branch cond disp s).x = s.x ∧ (branch cond disp s).y = s.y ∧
      (branch cond disp s).s = s.s ∧ (branch cond disp s).p = s.p := by simp [branch]

@[simp] theorem jumpIndirect_registers (ptr : Word) :
    (jumpIndirect ptr s).a = s.a ∧ (jumpIndirect ptr s).x = s.x ∧ (jumpIndirect ptr s).y = s.y ∧
      (jumpIndirect ptr s).s = s.s ∧ (jumpIndirect ptr s).p = s.p := by simp [jumpIndirect]

@[simp] theorem jumpSubroutine_registers (w : Word) :
    (jumpSubroutine w s).a = s.a ∧ (jumpSubroutine w s).x = s.x ∧ (jumpSubroutine w s).y = s.y ∧
      (jumpSubroutine w s).s = s.s - 2 ∧ (jumpSubroutine w s).p = s.p := by simp [jumpSubroutine]

@[simp] theorem returnSubroutine_registers :
    (returnSubroutine s).a = s.a ∧ (returnSubroutine s).x = s.x ∧ (returnSubroutine s).y = s.y ∧
      (returnSubroutine s).s = s.s + 2 ∧ (returnSubroutine s).p = s.p := by simp [returnSubroutine]

end control

/-! ### The writers of each register (10_state.md R21 to R24) -/

section writers

variable {i : Instr} {s t : State}

theorem meaning_keeps_a (m : Meaning i s t) (h : i.mnemonic ∉ [.adc, .andA, .eor, .lda, .ora, .pla, .sbc, .txa, .tya])
    (ho : i.operand ≠ .accumulator) : t.a = s.a := by
  cases m with
  | adc _ hm | sbc _ hm | lda _ hm | pla hm => simp [hm] at h
  | logic _ _ hm | toA _ hm => simp_all
  | asl _ _ ht | lsr _ _ ht | rol _ _ ht | ror _ _ ht => exact shift_a _ _ (ht ▸ ho)
  | _ => simp [interrupt_registers, returnFromInterrupt_registers]

theorem meaning_keeps_x (m : Meaning i s t) (h : i.mnemonic ∉ [.dex, .inx, .ldx, .tax, .tsx]) : t.x = s.x := by
  cases m with
  | ldx _ hm => simp [hm] at h
  | countX _ hm | toX _ hm => simp_all
  | _ => simp [interrupt_registers, returnFromInterrupt_registers]

theorem meaning_keeps_y (m : Meaning i s t) (h : i.mnemonic ∉ [.dey, .iny, .ldy, .tay]) : t.y = s.y := by
  cases m with
  | ldy _ hm | toY _ hm => simp [hm] at h
  | countY _ hm => simp_all
  | _ => simp [interrupt_registers, returnFromInterrupt_registers]

theorem meaning_keeps_s (m : Meaning i s t) (h : i.mnemonic ∉ [.txs, .pha, .php, .jsr, .brk, .pla, .plp, .rts, .rti]) :
    t.s = s.s := by
  cases m with
  | txs hm | jsr _ hm | brk hm | pla hm | plp hm | rts hm | rti hm => simp [hm] at h
  | push _ hm => simp_all
  | _ => simp

end writers

/-- Settles O19, by cases on the shared operation the instruction is. -/
theorem registerWriters : Obligations.RegisterWriters := by
  intro i s t h
  have m := meaning_of_exec h
  exact ⟨meaning_keeps_a m, meaning_keeps_x m, meaning_keeps_y m, meaning_keeps_s m⟩

/-! ### The writers of each flag (10_state.md R42) -/

section flagWriters

variable {i : Instr} {s t : State}

theorem meaning_keeps_v (m : Meaning i s t) (h : i.mnemonic ∉ [.adc, .sbc, .bit, .clv, .plp, .rti]) :
    t.p.v = s.p.v := by
  cases m with
  | adc _ hm | sbc _ hm | bit _ hm | plp hm | rti hm => simp [hm] at h
  | flag _ _ hm =>
    obtain ⟨hv, -⟩ := flagInstr_keeps hm
    simpa using hv (by simp_all)
  | _ => simp [interrupt_registers]

theorem meaning_keeps_d (m : Meaning i s t) (h : i.mnemonic ∉ [.cld, .sed, .plp, .rti])
    (hbrk : i.mnemonic ≠ .brk ∨ s.platform.intClearsD = false) : t.p.d = s.p.d := by
  cases m with
  | plp hm | rti hm => simp [hm] at h
  | brk hm => simp_all [interrupt_registers]
  | flag _ _ hm =>
    obtain ⟨-, hd, -⟩ := flagInstr_keeps hm
    simpa using hd (by simp_all)
  | _ => simp

theorem meaning_keeps_i (m : Meaning i s t) (h : i.mnemonic ∉ [.cli, .sei, .plp, .rti, .brk]) : t.p.i = s.p.i := by
  cases m with
  | plp hm | rti hm | brk hm => simp [hm] at h
  | flag _ _ hm =>
    obtain ⟨-, -, hi, -⟩ := flagInstr_keeps hm
    simpa using hi (by simp_all)
  | _ => simp

theorem meaning_keeps_c (m : Meaning i s t)
    (h : i.mnemonic ∉ [.adc, .sbc, .asl, .rol, .ror, .lsr, .cmp, .cpx, .cpy, .plp, .rti, .clc, .sec]) :
    t.p.c = s.p.c := by
  cases m with
  | adc _ hm | sbc _ hm | asl _ hm | rol _ hm | ror _ hm | lsr _ hm | plp hm | rti hm => simp [hm] at h
  | compare _ _ hm => simp_all
  | flag _ _ hm =>
    obtain ⟨-, -, -, hc, -⟩ := flagInstr_keeps hm
    simpa using hc (by simp_all)
  | _ => simp [interrupt_registers]

theorem meaning_keeps_nz (m : Meaning i s t)
    (h : i.mnemonic ∉ [.adc, .sbc, .andA, .eor, .ora, .bit, .asl, .rol, .ror, .lsr, .cmp, .cpx, .cpy, .dec, .dex, .dey,
      .inc, .inx, .iny, .lda, .ldx, .ldy, .tax, .tay, .tsx, .txa, .tya, .pla, .plp, .rti]) :
    t.p.n = s.p.n ∧ t.p.z = s.p.z := by
  cases m with
  | branch | jump | jumpIndirect | jsr | rts | store | push | txs | nop => simp
  | brk => simp [interrupt_registers]
  | flag _ _ hm =>
    obtain ⟨-, -, -, -, hn, hz⟩ := flagInstr_keeps hm
    simpa using ⟨hn, hz⟩
  | _ => simp_all

/-- The last row of the flag table: its mnemonics are in no other row, so each of the six flags is kept. -/
theorem meaning_keeps_p (m : Meaning i s t)
    (h : i.mnemonic ∈ [.bcc, .bcs, .beq, .bmi, .bne, .bpl, .bvc, .bvs, .jmp, .jsr, .rts, .nop, .pha, .php, .sta, .stx,
      .sty, .txs]) : t.p = s.p := by
  have unmarked {L : List Mnemonic} (hL : ∀ mn ∈ _, mn ∉ L) : i.mnemonic ∉ L := hL _ h
  have hv := meaning_keeps_v m (unmarked (by decide))
  have hbrk : i.mnemonic ≠ .brk := List.ne_of_not_mem_cons (unmarked (L := [.brk]) (by decide))
  have hd := meaning_keeps_d m (unmarked (by decide)) (.inl hbrk)
  have hi := meaning_keeps_i m (unmarked (by decide))
  have hc := meaning_keeps_c m (unmarked (by decide))
  obtain ⟨hn, hz⟩ := meaning_keeps_nz m (unmarked (by decide))
  exact flags_ext hn hv hd hi hz hc

end flagWriters

/-- Settles O20, by cases on the shared operation the instruction is. -/
theorem flagWriters : Obligations.FlagWriters := by
  intro i s t h
  have m := meaning_of_exec h
  exact ⟨meaning_keeps_v m, meaning_keeps_d m, meaning_keeps_i m, meaning_keeps_c m, meaning_keeps_nz m,
    meaning_keeps_p m⟩

/-! ### The next instruction in sequence (10_state.md R26, R27) -/

theorem meaning_advances_pc {i : Instr} {s t : State} (m : Meaning i s t)
    (h : i.mnemonic ∉ [.bcc, .bcs, .beq, .bmi, .bne, .bpl, .bvc, .bvs, .jmp, .jsr, .rts, .brk, .rti]) :
    t.pc = s.pc + BitVec.ofNat 16 i.length := by
  cases m with
  | branch _ _ hm => simp_all
  | jump _ hm | jumpIndirect _ hm | jsr _ hm | rts hm | brk hm | rti hm => simp [hm] at h
  | asl _ _ ho | lsr _ _ ho | rol _ _ ho | ror _ _ ho => simp [Instr.length, Target.length, ho]
  | dec _ _ ho | inc _ _ ho => simp [Instr.length, MemMode.length, Operand.mode, ho]
  | adc _ _ hl | sbc _ _ hl | compare _ _ _ hl | logic _ _ _ hl | bit _ _ hl | flag _ hl | countX _ _ hl | countY _ _ hl
  | lda _ _ hl | ldx _ _ hl | ldy _ _ hl | store _ _ _ hl | push _ _ hl | pla _ hl | plp _ hl | toA _ _ hl | toX _ _ hl
  | toY _ _ hl | txs _ hl | nop _ hl => simp [hl]

/-- Settles O21: the PC sum is taken modulo 65536. -/
theorem sequentialPc : Obligations.SequentialPc := by
  intro i s t h hm
  rw [meaning_advances_pc (meaning_of_exec h) hm]
  simp

/-! ### The masked IRQ (10_state.md R32, 60_exceptions.md R217) -/

/-- A step depends on the choice made at the boundary and on the latched state alone. -/
theorem step_congr {s t : State} (ha : s.action = t.action) (hl : s.latched = t.latched) : step s = step t := by
  simp only [step, ha, hl]

/-- With I set, the choice at a boundary other than R221's does not look at the IRQ line. -/
theorem action_of_masked {s : State} (hi : s.p.i = true) (hw : s.irqWindow = false) :
    s.action = if s.input.resetLine then .reset else if s.latched.nmiPending && s.input.accept then .nmi
      else .instruction := by
  simp [State.action, State.irqCondition, hi, hw]

/-- Settles O13: releasing the line changes neither what is latched nor, with IRQ masked, the choice made. -/
theorem maskedIrqIsInvisible : Obligations.MaskedIrqIsInvisible := by
  intro s e rest hin hi hw
  have hlatched : s.latched = State.latched { s with inputs := { e with irqLine := false } :: rest } := by
    simp [State.latched, State.input, hin]
  have haction : s.action = State.action { s with inputs := { e with irqLine := false } :: rest } := by
    rw [action_of_masked hi hw, action_of_masked (s := { s with inputs := _ :: rest }) hi hw, hlatched]
    simp [State.input, hin]
  exact step_congr haction hlatched

/-! ### The state after reset (10_state.md R40) -/

/-- Settles O16: memory lists nothing, and the boundary is not one of R221's. -/
theorem resetMeetsInvariant : Obligations.ResetMeetsInvariant where
  memory := rfl
  window := nofun

/-- Settles O17: the Reset vector is read from memory that lists nothing. -/
theorem resetLeavesSpecValues : Obligations.ResetLeavesSpecValues := ⟨rfl, rfl, rfl⟩

/-! ### The status byte (10_state.md R36, R37) -/

theorem packP_toNat (b : Bool) (p : Flags) :
    (packP b p).toNat = p.n.toNat * 128 + p.v.toNat * 64 + 32 + b.toNat * 16 + p.d.toNat * 8 + p.i.toNat * 4 +
      p.z.toNat * 2 + p.c.toNat := by
  have hn := p.n.toNat_le
  have hv := p.v.toNat_le
  have hd := p.d.toNat_le
  have hi := p.i.toNat_le
  have hz := p.z.toNat_le
  have hc := p.c.toNat_le
  have hb := b.toNat_le
  simp only [packP, BitVec.toNat_ofNat]
  omega

/-- The bits of the status byte, from 7 down to 0 (R36). -/
theorem packP_bits (b : Bool) (p : Flags) :
    (packP b p).getLsbD 7 = p.n ∧ (packP b p).getLsbD 6 = p.v ∧ (packP b p).getLsbD 5 = true ∧
      (packP b p).getLsbD 4 = b ∧ (packP b p).getLsbD 3 = p.d ∧ (packP b p).getLsbD 2 = p.i ∧
      (packP b p).getLsbD 1 = p.z ∧ (packP b p).getLsbD 0 = p.c := by
  obtain ⟨n, v, d, i, z, c⟩ := p
  revert b n v d i z c
  decide

theorem unpackP_packP (b : Bool) (p : Flags) : unpackP (packP b p) = p := by
  simp only [unpackP, packP_bits]

/-- Bits 5 and 4 of the byte unpacked are replaced, the other six come back. -/
theorem packP_unpackP (b : Bool) (v : Byte) :
    packP b (unpackP v) = (v &&& 0xCF) ||| 0x20 ||| (if b then 0x10 else 0) := by
  obtain ⟨h7, h6, h5, h4, h3, h2, h1, h0⟩ := packP_bits b (unpackP v)
  refine BitVec.eq_of_getLsbD_eq fun k hk => ?_
  interval_cases k <;> cases b <;> simp_all [unpackP]

/-- Settles O31, from the bits of the status byte. -/
theorem statusByteRoundTrip : Obligations.StatusByteRoundTrip :=
  fun b p v => ⟨packP_toNat b p, unpackP_packP b p, packP_unpackP b v⟩

end Sys2Proof.Machine
end

section
/-! PROOFS. Memory (20_memory.md): what a read and a write do at each kind of address (R52), the 16-bit reads (R54), the
instructions that store nothing (R56), the stack (R58), and what every step keeps: memory's canonical form (R50), the bytes
that are not RAM and the memory map (R52, R60), and the note of R221 (60_exceptions.md). -/

namespace Sys2Proof.Machine

open Sys2Proof

/-! ### The memory map: one equation per kind of address (R52) -/

section memoryMap

variable {s : State} {addr : Word}

theorem busRead_device {w : Byte} {rest : List Byte} (h : s.platform.kindAt addr = .device) (ha : s.answers = w :: rest) :
    s.busRead addr = (w, { s with answers := rest, busLog := .read addr w :: s.busLog }) := by
  simp only [State.busRead, h, ha]

theorem busRead_openBus (h : s.platform.kindAt addr = .openBus) :
    s.busRead addr = (Config.unspecifiedByte s.freeCount, { s with freeCount := s.freeCount + 1 }) := by
  simp only [State.busRead, h]

variable (v : Byte)

theorem busWrite_ram (h : s.platform.kindAt addr = .ram) :
    s.busWrite addr v = { s with mem := Memory.write s.mem addr.toNat v } := by
  simp only [State.busWrite, h]

theorem busWrite_rom (h : s.platform.kindAt addr = .rom) : s.busWrite addr v = s := by
  simp only [State.busWrite, h]

theorem busWrite_device (h : s.platform.kindAt addr = .device) :
    s.busWrite addr v = { s with busLog := .write addr v :: s.busLog } := by
  simp only [State.busWrite, h]

theorem busWrite_openBus (h : s.platform.kindAt addr = .openBus) : s.busWrite addr v = s := by
  simp only [State.busWrite, h]

/-- RAM gives back the byte written. -/
theorem busRead_busWrite_ram (h : s.platform.kindAt addr = .ram) : ((s.busWrite addr v).busRead addr).1 = v := by
  have hm : ((s.busWrite addr v).platform.kindAt addr).isMemory = true := by simp [h, RegionKind.isMemory]
  simp [busRead_of_isMemory hm, busWrite_byteAt, h]

end memoryMap

/-- Settles O23, by the kind of the address. -/
theorem memoryMap : Obligations.MemoryMap := by
  intro s addr v
  refine ⟨fun hram => ?_, fun hrom => ?_, fun hdev => ?_, fun hopen => ?_⟩
  · have hmem : (s.platform.kindAt addr).isMemory = true := congrArg RegionKind.isMemory hram
    have hbus : SameBus s (s.busWrite addr v) := by
      rw [busWrite_ram v hram]
      exact ⟨rfl, rfl, rfl⟩
    exact ⟨busRead_of_isMemory hmem, busRead_busWrite_ram v hram, busWrite_byteAt s addr v, hbus⟩
  · have hmem : (s.platform.kindAt addr).isMemory = true := congrArg RegionKind.isMemory hrom
    exact ⟨busRead_of_isMemory hmem, busWrite_rom v hrom⟩
  · exact ⟨fun _ _ => busRead_device hdev, busWrite_device v hdev⟩
  · exact ⟨busRead_openBus hopen, busWrite_openBus v hopen⟩

/-! ### 16-bit reads (R54) -/

theorem zeroExtend16_eq_ofNat (b : Byte) : zeroExtend16 b = BitVec.ofNat 16 b.toNat := by
  simp [zeroExtend16, joinBytes]

/-- The next address, modulo 65536. -/
theorem succ_eq_ofNat (addr : Word) : addr + 1 = BitVec.ofNat 16 ((addr.toNat + 1) % 65536) := by
  apply BitVec.eq_of_toNat_eq
  simp

/-- The next address of page zero, modulo 256. -/
theorem zeroExtend16_succ (zp : Byte) : zeroExtend16 (zp + 1) = BitVec.ofNat 16 ((zp.toNat + 1) % 256) := by
  simp [zeroExtend16_eq_ofNat]

/-- The next address inside the page. -/
theorem pageSuccessor_eq_ofNat (addr : Word) :
    ((addr &&& 0xFF00) ||| ((addr + 1) &&& 0x00FF)) =
      BitVec.ofNat 16 (addr.toNat / 256 * 256 + (addr.toNat + 1) % 256) := by
  apply BitVec.eq_of_toNat_eq
  rw [pageSuccessor_toNat, BitVec.toNat_ofNat]
  omega

theorem read16_eq_readPair (s : State) (addr : Word) :
    s.read16 addr = s.readPair addr (BitVec.ofNat 16 ((addr.toNat + 1) % 65536)) := by
  rw [State.read16, succ_eq_ofNat]

theorem read16ZP_eq_readPair (s : State) (zp : Byte) :
    s.read16ZP zp = s.readPair (BitVec.ofNat 16 zp.toNat) (BitVec.ofNat 16 ((zp.toNat + 1) % 256)) := by
  rw [State.read16ZP, zeroExtend16_succ, zeroExtend16_eq_ofNat]

theorem read16Page_eq_readPair (s : State) (addr : Word) :
    s.read16Page addr = s.readPair addr (BitVec.ofNat 16 (addr.toNat / 256 * 256 + (addr.toNat + 1) % 256)) := by
  rw [State.read16Page, pageSuccessor_eq_ofNat]

/-- Settles O24: each 16-bit read is the pair of byte reads at its two addresses. -/
theorem sixteenBitReads : Obligations.SixteenBitReads := by
  intro s addr zp
  refine ⟨read16_eq_readPair s addr, read16ZP_eq_readPair s zp, read16Page_eq_readPair s addr, fun hlo hhi => ?_,
    fun hlo hhi => ?_, fun hlo hhi => ?_, joinBytes_toNat⟩
  · exact (read16_eq_readPair s addr).trans (readPair_of_isMemory hlo hhi)
  · exact (read16ZP_eq_readPair s zp).trans (readPair_of_isMemory hlo hhi)
  · exact (read16Page_eq_readPair s addr).trans (readPair_of_isMemory hlo hhi)

/-! ### The stack (R58) -/

theorem push_sameSetting (s : State) (v : Byte) : SameSetting s (s.push v) := ⟨by simp, by simp, by simp, by simp⟩

/-- The bus does not see S go down. -/
theorem push_busStored (s : State) (v : Byte) : BusStored s (s.push v) (stackAddr s.s) v :=
  ⟨push_answers s v, busWrite_busLog s (stackAddr s.s) v, push_freeCount s v⟩

theorem stackAddr_succ (v : Byte) : stackAddr (v + 1) = BitVec.ofNat 16 (0x0100 + (v.toNat + 1) % 256) := by
  apply BitVec.eq_of_toNat_eq
  rw [stackAddr_toNat, BitVec.toNat_ofNat]
  bv_omega

theorem pull_eq_busRead (s : State) :
    s.pull = (s.setS (s.s + 1)).busRead (BitVec.ofNat 16 (0x0100 + (s.s.toNat + 1) % 256)) := by
  rw [State.pull, stackAddr_succ]

/-- A pull after a push into RAM gives the byte back. -/
theorem pull_push_ram {s : State} (v : Byte) (h : s.platform.kindAt (stackAddr s.s) = .ram) : (s.push v).pull.1 = v := by
  have hs : (s.push v).s + 1 = s.s := by simp
  have hm : ((s.push v).platform.kindAt (stackAddr ((s.push v).s + 1))).isMemory = true := by
    simp [h, RegionKind.isMemory]
  simp only [pull_of_isMemory hm, hs, push_byteAt, h, and_self, if_true]

/-- Settles O25: a push is a write at S and one down, a pull is one up and a read. -/
theorem pushAndPull : Obligations.PushAndPull := by
  intro s v
  exact ⟨push_s s v, stackAddr_toNat s.s, push_byteAt s v, push_busStored s v, push_sameSetting s v, push_p s v,
    push_pc s v, push_a s v, push_x s v, push_y s v, pull_eq_busRead s, pull_of_isMemory,
    fun hram => ⟨pull_push_ram v hram, by simp⟩⟩

/-! ### Memory and setting after each shared operation -/

theorem sameSetting_iff (s t : State) :
    SameSetting s t ↔ t.nmiPending = s.nmiPending ∧ t.irqWindow = s.irqWindow ∧ t.platform = s.platform ∧
      t.inputs = s.inputs :=
  ⟨fun ⟨hn, hw, hp, hi⟩ => ⟨hn, hw, hp, hi⟩, fun ⟨hn, hw, hp, hi⟩ => ⟨hn, hw, hp, hi⟩⟩

section reading

variable (src : Source) (s : State)

@[simp] theorem adc_memory : (adc src s).mem = s.mem ∧ SameSetting s (adc src s) := by
  simp [adc, sameSetting_iff]

@[simp] theorem sbc_memory : (sbc src s).mem = s.mem ∧ SameSetting s (sbc src s) := by
  simp [sbc, sameSetting_iff]

@[simp] theorem compareWith_memory (reg : Byte) :
    (compareWith reg src s).mem = s.mem ∧ SameSetting s (compareWith reg src s) := by
  simp [compareWith, sameSetting_iff]

@[simp] theorem logic_memory (op : Byte → Byte → Byte) :
    (logic op src s).mem = s.mem ∧ SameSetting s (logic op src s) := by
  simp [logic, sameSetting_iff]

@[simp] theorem bitTest_memory (m : MemMode) : (bitTest m s).mem = s.mem ∧ SameSetting s (bitTest m s) := by
  simp [bitTest, sameSetting_iff]

@[simp] theorem loadA_memory : (loadA src s).mem = s.mem ∧ SameSetting s (loadA src s) := by
  simp [loadA, sameSetting_iff]

@[simp] theorem loadX_memory : (loadX src s).mem = s.mem ∧ SameSetting s (loadX src s) := by
  simp [loadX, sameSetting_iff]

@[simp] theorem loadY_memory : (loadY src s).mem = s.mem ∧ SameSetting s (loadY src s) := by
  simp [loadY, sameSetting_iff]

end reading

section implied

variable (v : Byte) (s : State)

@[simp] theorem flagOp_memory (p : Flags) : (flagOp p s).mem = s.mem ∧ SameSetting s (flagOp p s) := by
  simp [flagOp, sameSetting_iff]

@[simp] theorem countX_memory : (countX v s).mem = s.mem ∧ SameSetting s (countX v s) := by
  simp [countX, sameSetting_iff]

@[simp] theorem countY_memory : (countY v s).mem = s.mem ∧ SameSetting s (countY v s) := by
  simp [countY, sameSetting_iff]

@[simp] theorem transferToA_memory : (transferToA v s).mem = s.mem ∧ SameSetting s (transferToA v s) := by
  simp [transferToA, sameSetting_iff]

@[simp] theorem transferToX_memory : (transferToX v s).mem = s.mem ∧ SameSetting s (transferToX v s) := by
  simp [transferToX, sameSetting_iff]

@[simp] theorem transferToY_memory : (transferToY v s).mem = s.mem ∧ SameSetting s (transferToY v s) := by
  simp [transferToY, sameSetting_iff]

@[simp] theorem pullA_memory : (pullA s).mem = s.mem ∧ SameSetting s (pullA s) := by
  simp [pullA, sameSetting_iff]

@[simp] theorem pullP_memory : (pullP s).mem = s.mem ∧ SameSetting s (pullP s) := by
  simp [pullP, sameSetting_iff]

end implied

section jumping

variable (s : State)

@[simp] theorem branch_memory (cond : Bool) (disp : Byte) :
    (branch cond disp s).mem = s.mem ∧ SameSetting s (branch cond disp s) := by
  simp [branch, sameSetting_iff]

@[simp] theorem jumpIndirect_memory (ptr : Word) :
    (jumpIndirect ptr s).mem = s.mem ∧ SameSetting s (jumpIndirect ptr s) := by
  simp [jumpIndirect, sameSetting_iff]

@[simp] theorem returnSubroutine_memory : (returnSubroutine s).mem = s.mem ∧ SameSetting s (returnSubroutine s) := by
  simp [returnSubroutine, sameSetting_iff]

@[simp] theorem returnFromInterrupt_memory :
    s.returnFromInterrupt.mem = s.mem ∧ SameSetting s s.returnFromInterrupt := by
  simp [State.returnFromInterrupt, sameSetting_iff]

end jumping

/-! The operations that store or push keep the setting. -/

section storing

variable (f : Byte → Flags → Byte × Flags) (v : Byte) (m : MemMode) (s : State)

@[simp] theorem shift_sameSetting (target : Target) : SameSetting s (shift f target s) := by
  cases target <;> simp [shift, Target.modify, sameSetting_iff]

@[simp] theorem step1Memory_sameSetting : SameSetting s (step1Memory f m s) := by simp [step1Memory, sameSetting_iff]

@[simp] theorem storeByte_sameSetting : SameSetting s (storeByte v m s) := by simp [storeByte, sameSetting_iff]

@[simp] theorem pushByte_sameSetting : SameSetting s (pushByte v s) := by simp [pushByte, sameSetting_iff]

@[simp] theorem jumpSubroutine_sameSetting (w : Word) : SameSetting s (jumpSubroutine w s) := by
  simp [jumpSubroutine, sameSetting_iff]

@[simp] theorem interrupt_sameSetting (vector : Word) (b : Bool) (ret : Word) :
    SameSetting s (s.interrupt vector b ret) := by simp [interrupt_registers, sameSetting_iff]

end storing

/-- An instruction leaves the NMI latch, the note of R221, the platform and the inputs to the step that runs it. -/
theorem meaning_sameSetting {i : Instr} {s t : State} (m : Meaning i s t) : SameSetting s t := by
  cases m with
  | jump | txs | nop => simp [sameSetting_iff]
  | _ => simp

/-! ### Instructions that store and push nothing (R56) -/

theorem meaning_keeps_mem {i : Instr} {s t : State} (m : Meaning i s t)
    (h : i.mnemonic ∉ [.sta, .stx, .sty, .asl, .lsr, .rol, .ror, .inc, .dec, .pha, .php, .jsr, .brk]) : t.mem = s.mem := by
  cases m with
  | asl _ hm | lsr _ hm | rol _ hm | ror _ hm | dec _ hm | inc _ hm | jsr _ hm | brk hm => simp [hm] at h
  | store _ _ hm | push _ hm => simp_all
  | _ => simp

@[simp] theorem shift_accumulator_mem (f : Byte → Flags → Byte × Flags) (s : State) :
    (shift f .accumulator s).mem = s.mem := rfl

/-- The accumulator forms are shifts and rotates of A (30_encoding.md R96). -/
theorem accumulator_forms {i : Instr} (h : i.operand = .accumulator) :
    ∃ f, ∀ s, exec i s = .next (shift f .accumulator s) := by
  cases i with
  | aslAccumulator => exact ⟨aslByte, fun _ => rfl⟩
  | lsrAccumulator => exact ⟨lsrByte, fun _ => rfl⟩
  | rolAccumulator => exact ⟨rolByte, fun _ => rfl⟩
  | rorAccumulator => exact ⟨rorByte, fun _ => rfl⟩
  | _ => nomatch h

theorem sameMemory_of_mem_eq {s t : State} (h : t.mem = s.mem) : SameMemory s t := by
  intro b
  simp only [State.byteAt, h]

/-- Settles O22: outside the list no shared operation writes memory, and the accumulator forms write A. -/
theorem nonStoringKeepsMemory : Obligations.NonStoringKeepsMemory := by
  intro i s t h hi
  apply sameMemory_of_mem_eq
  obtain hm | ho := hi
  · exact meaning_keeps_mem (meaning_of_exec h) hm
  · obtain ⟨f, hf⟩ := accumulator_forms ho
    cases (hf s).symm.trans h
    exact shift_accumulator_mem f s

/-! ### What every step keeps (R50, R52, R60) -/

/-- Whatever was written to memory between `s` and `t` was written to RAM: the memory map and the bytes that are not RAM are
as they were, and memory is still in canonical form. -/
structure OnlyRamWritten (s t : State) : Prop where
  platform : t.platform = s.platform
  notRam : ∀ b : Word, s.platform.kindAt b ≠ .ram → t.byteAt b = s.byteAt b
  canonical : Memory.wf s.mem = true → Memory.wf t.mem = true

namespace OnlyRamWritten

theorem of_mem_eq {s t : State} (hm : t.mem = s.mem) (hp : t.platform = s.platform) : OnlyRamWritten s t where
  platform := hp
  notRam b _ := sameMemory_of_mem_eq hm b
  canonical h := hm ▸ h

theorem trans {s t u : State} (h : OnlyRamWritten s t) (k : OnlyRamWritten t u) : OnlyRamWritten s u where
  platform := k.platform.trans h.platform
  notRam b hb := (k.notRam b (h.platform.symm ▸ hb)).trans (h.notRam b hb)
  canonical hw := k.canonical (h.canonical hw)

/-- Every write goes through the memory map. -/
theorem busWrite (s : State) (addr : Word) (v : Byte) : OnlyRamWritten s (s.busWrite addr v) where
  platform := busWrite_platform s addr v
  notRam b hb := by
    rw [busWrite_byteAt, if_neg]
    rintro ⟨rfl, hram⟩
    exact hb hram
  canonical := busWrite_wf addr v

theorem push (s : State) (v : Byte) : OnlyRamWritten s (s.push v) :=
  (busWrite s (stackAddr s.s) v).trans (of_mem_eq rfl rfl)

theorem push16 (s : State) (w : Word) : OnlyRamWritten s (s.push16 w) := (push s _).trans (push _ _)

theorem interrupt (s : State) (vector : Word) (b : Bool) (ret : Word) : OnlyRamWritten s (s.interrupt vector b ret) :=
  ((push16 s ret).trans (push _ (packP b s.p))).trans (of_mem_eq (by simp [State.interrupt]) (by simp [State.interrupt]))

theorem store (m : MemMode) (v : Byte) (s : State) : OnlyRamWritten s (m.store v s) :=
  (of_mem_eq (address_mem m s) (address_platform m s)).trans (busWrite _ _ v)

theorem modify (m : MemMode) (f : Byte → Flags → Byte × Flags) (s : State) : OnlyRamWritten s (m.modify f s) :=
  (of_mem_eq (load_mem m s) (load_platform m s)).trans ((busWrite _ _ _).trans (of_mem_eq rfl rfl))

theorem shift (f : Byte → Flags → Byte × Flags) (target : Target) (s : State) : OnlyRamWritten s (shift f target s) := by
  cases target with
  | accumulator => exact of_mem_eq rfl rfl
  | memory m => exact (modify m f s).trans (of_mem_eq rfl rfl)

theorem of_meaning {i : Instr} {s t : State} (m : Meaning i s t) : OnlyRamWritten s t := by
  cases m with
  | asl target | lsr target | rol target | ror target => exact shift _ target s
  | dec m | inc m => exact (modify m _ s).trans (of_mem_eq rfl rfl)
  | store v m => exact (store m v s).trans (of_mem_eq rfl rfl)
  | push v => exact (push s v).trans (of_mem_eq rfl rfl)
  | jsr => exact (push16 s _).trans (of_mem_eq rfl rfl)
  | brk => exact interrupt s _ _ _
  | jump | txs | nop => exact of_mem_eq rfl rfl
  | _ => exact of_mem_eq (by simp) (SameSetting.platform (by simp))

theorem resetSequence (s : State) : OnlyRamWritten s s.resetSequence := by
  obtain ⟨-, -, -, -, -, -, hmem, hplatform, -⟩ := resetSequence_registers s
  exact of_mem_eq hmem hplatform

theorem nmiEntry (s : State) : OnlyRamWritten s s.nmiEntry :=
  (of_mem_eq rfl rfl : OnlyRamWritten s { s with nmiPending := false }).trans (interrupt _ _ _ _)

theorem fetch (s : State) : OnlyRamWritten s s.fetch.state := by
  obtain ⟨-, -, -, -, -, -, -, -, hmem, hplatform, -⟩ := fetch_frame s
  exact of_mem_eq hmem hplatform

/-- What is latched at the boundary before the step, and noted after it, is not memory. -/
theorem boundary {s t : State} (h : OnlyRamWritten s.latched t) (w : Bool) : OnlyRamWritten s (t.setIrqWindow w) :=
  ((of_mem_eq rfl rfl : OnlyRamWritten s s.latched).trans h).trans (of_mem_eq rfl rfl)

theorem of_step {s t : State} (h : step s = .next t) : OnlyRamWritten s t := by
  obtain rfl | rfl | rfl | ⟨i, u, m, rfl⟩ := step_cases h
  · exact (resetSequence _).boundary false
  · exact (nmiEntry _).boundary false
  · exact (interrupt _ _ _ _).boundary false
  · exact ((fetch _).trans (of_meaning m)).boundary _

end OnlyRamWritten

/-- A step opens the window of R221 only with an instruction that leaves I set. -/
theorem step_irqWindow {s t : State} (h : step s = .next t) (hw : t.irqWindow = true) : t.p.i = true := by
  obtain rfl | rfl | rfl | ⟨i, u, -, rfl⟩ := step_cases h
  · simp at hw
  · simp at hw
  · simp at hw
  · simp only [setIrqWindow_irqWindow, Bool.and_eq_true] at hw
    exact hw.2

/-- Settles O15: a step writes memory through the memory map, and opens the window of R221 only with I set. -/
theorem stepKeepsInvariant : Obligations.StepKeepsInvariant := fun _ _ hinv h =>
  ⟨(OnlyRamWritten.of_step h).canonical hinv.memory, step_irqWindow h⟩

/-- Settles O18: a step writes memory through the memory map. -/
theorem stepKeepsRomAndPlatform : Obligations.StepKeepsRomAndPlatform := fun _ _ h =>
  ⟨(OnlyRamWritten.of_step h).platform, (OnlyRamWritten.of_step h).notRam⟩

end Sys2Proof.Machine
end

section
/-! PROOFS. The encoding (30_encoding.md): decoding and encoding are each other's inverse (R80 to R83, R99, R104), the 105
undefined opcodes (R100), the bit pattern of the two regular groups (R106), and the effective addresses (R86 to R93). -/

namespace Sys2Proof.Machine

open Sys2Proof

/-! ### The rows of the opcode map and the encoder's table (R81, R83, R99) -/

/-- The instruction is one the row makes, of some operand. -/
def FormMakes : Form → Instr → Prop
  | .bare j, i => j = i
  | .withByte f, i => ∃ b, f b = i
  | .withWord f, i => ∃ w, f w = i

/-- The encoder lays out what the row makes as the row's format says: opcode, then the operand, low byte first (F1, F2, F3). -/
def FormEncodes (op : Byte) : Form → Prop
  | .bare i => encode i = [op]
  | .withByte f => ∀ b, encode (f b) = [op, b]
  | .withWord f => ∀ w, encode (f w) = [op, loByte w, hiByte w]

/-- The decoder's map has a row for each of the 151 constructors, under its opcode byte. -/
theorem exists_row_of_instr (i : Instr) :
    ∃ op form, (encode i).head? = some op ∧ formOf op = some form ∧ FormMakes form i := by
  cases i with
  | aslAccumulator | lsrAccumulator | rolAccumulator | rorAccumulator
  | clc | cld | cli | clv | sec | sed | sei | dex | dey | inx | iny | rts
  | pha | php | pla | plp | tax | tay | tsx | txa | txs | tya | brk | rti | nop => exact ⟨_, _, rfl, rfl, rfl⟩
  | _ => exact ⟨_, _, rfl, rfl, _, rfl⟩

theorem opcodeGrid_encodes : ∀ rows ∈ opcodeGrid, ∀ row ∈ rows, FormEncodes (BitVec.ofNat 8 row.1) row.2 := by
  simp only [opcodeGrid, opcodes0x, opcodes1x, opcodes2x, opcodes3x, opcodes4x, opcodes5x, opcodes6x, opcodes7x,
    opcodes8x, opcodes9x, opcodesAx, opcodesBx, opcodesCx, opcodesDx, opcodesEx, opcodesFx, List.forall_mem_cons,
    FormEncodes, List.not_mem_nil, false_implies, implies_true, and_true]
  and_intros <;> intros <;> rfl

/-- What an opcode byte selects is a row of the grid with that opcode. -/
theorem exists_mem_opcodeGrid_of_formOf {op : Byte} {form : Form} (h : formOf op = some form) :
    ∃ rows ∈ opcodeGrid, (op.toNat, form) ∈ rows := by
  have hrow := mem_of_findRow h
  by_cases hi : op.toNat / 16 < opcodeGrid.length
  · rw [List.getD_eq_getElem _ _ hi] at hrow
    exact ⟨_, List.getElem_mem hi, hrow⟩
  · rw [List.getD_eq_default _ _ (by omega)] at hrow
    cases hrow

theorem formOf_encodes {op : Byte} {form : Form} (h : formOf op = some form) : FormEncodes op form := by
  obtain ⟨rows, hrows, hrow⟩ := exists_mem_opcodeGrid_of_formOf h
  simpa using opcodeGrid_encodes rows hrows _ hrow

/-! ### Decoding and encoding are inverse (R80 to R83, R104) -/

theorem decode_encode_of_row {op : Byte} {form : Form} {i : Instr} (hrow : formOf op = some form)
    (hmakes : FormMakes form i) (rest : List Byte) : decode (encode i ++ rest) = .ok (i, rest) := by
  have henc := formOf_encodes hrow
  cases form with
  | bare j =>
    obtain rfl : j = i := hmakes
    have hbytes : encode j = [op] := henc
    simp [hbytes, decode, hrow]
  | withByte f =>
    obtain ⟨b, rfl⟩ := hmakes
    have hbytes : encode (f b) = [op, b] := henc b
    simp [hbytes, decode, hrow]
  | withWord f =>
    obtain ⟨w, rfl⟩ := hmakes
    have hbytes : encode (f w) = [op, loByte w, hiByte w] := henc w
    simp [hbytes, decode, hrow]

/-- Settles O1: each instruction is of a row of the map, and the row's format reads back what the encoder lays out. -/
theorem decodeOfEncode : Obligations.DecodeOfEncode := by
  intro i rest
  obtain ⟨op, form, -, hrow, hmakes⟩ := exists_row_of_instr i
  exact decode_encode_of_row hrow hmakes rest

/-- The bytes a row's format reads are those the encoder lays out. -/
theorem encode_append_of_decode {op : Byte} {form : Form} {tail rest : List Byte} {i : Instr}
    (hrow : formOf op = some form) (hdec : decode (op :: tail) = .ok (i, rest)) : encode i ++ rest = op :: tail := by
  have henc := formOf_encodes hrow
  cases form with
  | bare j =>
    obtain ⟨rfl, rfl⟩ : j = i ∧ tail = rest := by simpa [decode, hrow] using hdec
    have hbytes : encode j = [op] := henc
    simp [hbytes]
  | withByte f =>
    cases tail with
    | nil => simp [decode, hrow] at hdec
    | cons b tail =>
      obtain ⟨rfl, rfl⟩ : f b = i ∧ tail = rest := by simpa [decode, hrow] using hdec
      have hbytes : encode (f b) = [op, b] := henc b
      simp [hbytes]
  | withWord f =>
    match tail with
    | [] | [_] => simp [decode, hrow] at hdec
    | lo :: hi :: tail =>
      obtain ⟨rfl, rfl⟩ : f (joinBytes hi lo) = i ∧ tail = rest := by simpa [decode, hrow] using hdec
      have hbytes : encode (f (joinBytes hi lo)) = [op, loByte (joinBytes hi lo), hiByte (joinBytes hi lo)] := henc _
      simp [hbytes]

theorem decode_of_formOf_eq_none {op : Byte} (h : formOf op = none) (rest : List Byte) :
    decode (op :: rest) = .error (.undefinedOpcode op) := by
  simp [decode, h]

/-- Settles O2, by the row the first byte selects. -/
theorem encodeOfDecode : Obligations.EncodeOfDecode := by
  intro bytes rest i hdec
  cases bytes with
  | nil => cases hdec
  | cons op tail =>
    cases hrow : formOf op with
    | none => cases (decode_of_formOf_eq_none hrow tail).symm.trans hdec
    | some form => exact encode_append_of_decode hrow hdec

/-- Settles O4: each word is the encoding of the instruction the table names. -/
theorem familyWordsDecode : Obligations.FamilyWordsDecode :=
  ⟨decodeOfEncode (.adcImmediate 0x50) [], decodeOfEncode (.bitAbsolute 0x0300) [], decodeOfEncode .rorAccumulator [],
    decodeOfEncode (.bne 0xFB) [], decodeOfEncode .sei [], decodeOfEncode (.incZeroPageX 0x10) [],
    decodeOfEncode (.jmpIndirect 0x12FF) [], decodeOfEncode (.staIndirectY 0x10) [], decodeOfEncode .plp [],
    decodeOfEncode .brk []⟩

/-! ### The undefined opcodes (R100, R104) -/

/-- Three bytes are enough for every row. -/
theorem decode_three_bytes_of_formOf {op : Byte} {form : Form} (h : formOf op = some form) (b1 b2 : Byte) :
    ∃ i rest, decode [op, b1, b2] = .ok (i, rest) := by
  cases form with
  | bare i => exact ⟨i, [b1, b2], by simp [decode, h]⟩
  | withByte f => exact ⟨f b1, [b2], by simp [decode, h]⟩
  | withWord f => exact ⟨f (joinBytes b2 b1), [], by simp [decode, h]⟩

theorem runNext_undefinedOpcode {s : State} (h : (s.busRead s.pc).1.toNat ∈ undefinedOpcodes) :
    runNext s = .refused (.undefinedOpcode (s.busRead s.pc).1 s.pc) := by
  have hnone : s.fetch.instr = none := (fetch_instr_eq_none_iff s).2 ((formOf_eq_none_iff _).2 h)
  simp [runNext, hnone]

/-- Neither of the two points of refusal: no undefined opcode is fetched, and decimal mode is off or has its NMOS meaning. -/
theorem step_next_of_not_refused {s : State}
    (hop : s.action = .instruction → (s.latched.busRead s.pc).1.toNat ∉ undefinedOpcodes)
    (hdec : s.p.d = false ∨ s.platform.decimalMode = .nmos) : ∃ t, step s = .next t := by
  obtain hnext | ⟨r, hr⟩ := step_next_or_refused s
  · exact hnext
  · obtain ⟨ha, hrun⟩ := step_refused hr
    obtain ⟨hundef, -⟩ | ⟨hrefuses, -⟩ := runNext_refused hrun
    · exact absurd hundef (hop ha)
    · obtain ⟨hd, hmode⟩ : s.p.d = true ∧ s.platform.decimalMode = .refuse := (refusesDecimal_iff s.latched).1 hrefuses
      simp [hd, hmode] at hdec

/-- Settles O3: the bytes of no row are those of R100's list; a step that is not refused goes on. -/
theorem undefinedOpcodesAreRefused : Obligations.UndefinedOpcodesAreRefused := by
  refine ⟨fun b rest hb => ?_, fun b b1 b2 hb => ?_, fun s ha hop => ?_, fun s => step_next_of_not_refused⟩
  · exact decode_of_formOf_eq_none ((formOf_eq_none_iff b).2 hb) rest
  · obtain ⟨form, hform⟩ := Option.ne_none_iff_exists'.1 (mt (formOf_eq_none_iff b).1 hb)
    exact decode_three_bytes_of_formOf hform b1 b2
  · exact (step_of_instruction ha).trans (runNext_undefinedOpcode (s := s.latched) hop)

/-! ### The bit pattern aaabbbcc (R106) -/

/-- Where a row of `rows` has an address mode of `modes`, which pairs `bbb` with modes, its opcode is `aaabbbcc`. -/
abbrev RowsRegular (aaa cc : Nat) (modes rows : List (Nat × AddrMode)) : Prop :=
  ∀ row ∈ rows, ∀ field ∈ modes, field.2 = row.2 → row.1 = aaa * 32 + field.1 * 4 + cc

theorem head?_encode_of_rowsRegular {i : Instr} {aaa bbb cc : Nat} {modes rows : List (Nat × AddrMode)}
    (hop : HasOpcode i rows) (hreg : RowsRegular aaa cc modes rows) (hmode : (bbb, i.operand.mode) ∈ modes) :
    (encode i).head? = some (BitVec.ofNat 8 (aaa * 32 + bbb * 4 + cc)) := by
  obtain ⟨row, hrow, hrowMode, hhead⟩ := hop
  rw [hhead, hreg row hrow _ hmode hrowMode]

/-- `bbb` and its address mode, for cc = 01. -/
def groupOneModes : List (Nat × AddrMode) :=
  [(0, .indirectX), (1, .zeroPage), (2, .immediate), (3, .absolute), (4, .indirectY), (5, .zeroPageX), (6, .absoluteY),
    (7, .absoluteX)]

/-- `bbb` and its address modes, for cc = 10. -/
def groupTwoModes : List (Nat × AddrMode) :=
  [(0, .immediate), (1, .zeroPage), (2, .accumulator), (3, .absolute), (5, .zeroPageX), (5, .zeroPageY), (7, .absoluteX),
    (7, .absoluteY)]

theorem mem_groupOneModes {bbb : Nat} {m : AddrMode}
    (h : [AddrMode.indirectX, .zeroPage, .immediate, .absolute, .indirectY, .zeroPageX, .absoluteY, .absoluteX][bbb]? =
      some m) : (bbb, m) ∈ groupOneModes :=
  List.mem_map_of_mem (f := Prod.swap) (List.mk_mem_zipIdx_iff_getElem?.2 h)

/-- ORA, AND, EOR, ADC, STA, LDA, CMP, SBC, by `aaa`. -/
theorem groupOne_rowsRegular {i : Instr} {aaa : Nat}
    (h : [Mnemonic.ora, .andA, .eor, .adc, .sta, .lda, .cmp, .sbc][aaa]? = some i.mnemonic) :
    ∃ rows, HasOpcode i rows ∧ RowsRegular aaa 1 groupOneModes rows := by
  match aaa, h with
  | 0, h => obtain ⟨_, -, -, -, hop⟩ := ora_forms .reset (Option.some.inj h).symm; exact ⟨_, hop, by decide⟩
  | 1, h => obtain ⟨_, -, -, -, hop⟩ := and_forms .reset (Option.some.inj h).symm; exact ⟨_, hop, by decide⟩
  | 2, h => obtain ⟨_, -, -, -, hop⟩ := eor_forms .reset (Option.some.inj h).symm; exact ⟨_, hop, by decide⟩
  | 3, h => obtain ⟨_, -, -, -, hop⟩ := adc_forms .reset (Option.some.inj h).symm; exact ⟨_, hop, by decide⟩
  | 4, h => obtain ⟨_, -, -, -, hop⟩ := sta_forms .reset (Option.some.inj h).symm; exact ⟨_, hop, by decide⟩
  | 5, h => obtain ⟨_, -, -, -, hop⟩ := lda_forms .reset (Option.some.inj h).symm; exact ⟨_, hop, by decide⟩
  | 6, h => obtain ⟨_, -, -, -, hop⟩ := cmp_forms .reset (Option.some.inj h).symm; exact ⟨_, hop, by decide⟩
  | 7, h => obtain ⟨_, -, -, -, hop⟩ := sbc_forms .reset (Option.some.inj h).symm; exact ⟨_, hop, by decide⟩
  | _ + 8, h => nomatch h

/-- ASL, ROL, LSR, ROR, STX, LDX, DEC, INC, by `aaa`. -/
theorem groupTwo_rowsRegular {i : Instr} {aaa : Nat}
    (h : [Mnemonic.asl, .rol, .lsr, .ror, .stx, .ldx, .dec, .inc][aaa]? = some i.mnemonic) :
    ∃ rows, HasOpcode i rows ∧ RowsRegular aaa 2 groupTwoModes rows := by
  match aaa, h with
  | 0, h => obtain ⟨_, -, -, -, hop⟩ := asl_forms .reset (Option.some.inj h).symm; exact ⟨_, hop, by decide⟩
  | 1, h => obtain ⟨_, -, -, -, hop⟩ := rol_forms .reset (Option.some.inj h).symm; exact ⟨_, hop, by decide⟩
  | 2, h => obtain ⟨_, -, -, -, hop⟩ := lsr_forms .reset (Option.some.inj h).symm; exact ⟨_, hop, by decide⟩
  | 3, h => obtain ⟨_, -, -, -, hop⟩ := ror_forms .reset (Option.some.inj h).symm; exact ⟨_, hop, by decide⟩
  | 4, h => obtain ⟨_, -, -, -, hop⟩ := stx_forms .reset (Option.some.inj h).symm; exact ⟨_, hop, by decide⟩
  | 5, h => obtain ⟨_, -, -, -, hop⟩ := ldx_forms .reset (Option.some.inj h).symm; exact ⟨_, hop, by decide⟩
  | 6, h => obtain ⟨_, -, -, -, hop⟩ := dec_forms .reset (Option.some.inj h).symm; exact ⟨_, hop, by decide⟩
  | 7, h => obtain ⟨_, -, -, -, hop⟩ := inc_forms .reset (Option.some.inj h).symm; exact ⟨_, hop, by decide⟩
  | _ + 8, h => nomatch h

/-- Settles O5: the Encoding lines of each group's mnemonics have the group's bit pattern. -/
theorem opcodeBitPattern : Obligations.OpcodeBitPattern := by
  refine ⟨fun i aaa bbb hm hmode => ?_, fun i aaa bbb hm hmode => ?_⟩
  · obtain ⟨rows, hop, hreg⟩ := groupOne_rowsRegular hm
    exact head?_encode_of_rowsRegular hop hreg (mem_groupOneModes hmode)
  · obtain ⟨rows, hop, hreg⟩ := groupTwo_rowsRegular hm
    exact head?_encode_of_rowsRegular hop hreg hmode

/-! ### Effective addresses (R86 to R93) -/

/-- Adding an index in page zero wraps modulo 256 (R87, R88). -/
theorem zeroExtend16_add (zp index : Byte) :
    zeroExtend16 (zp + index) = BitVec.ofNat 16 ((zp.toNat + index.toNat) % 256) := by
  rw [zeroExtend16_eq_ofNat, BitVec.toNat_add]

/-- Adding an index to an address wraps modulo 65536 (R90, R91). -/
theorem add_zeroExtend16 (addr : Word) (index : Byte) :
    addr + zeroExtend16 index = BitVec.ofNat 16 ((addr.toNat + index.toNat) % 65536) := by
  apply BitVec.eq_of_toNat_eq
  simp [zeroExtend16_eq_ofNat]

theorem byte_add_eq_ofNat (a b : Byte) : a + b = BitVec.ofNat 8 ((a.toNat + b.toNat) % 256) := by
  apply BitVec.eq_of_toNat_eq
  simp

/-- Over memory a pointer is two bytes of page zero, and reading it changes nothing. -/
theorem read16ZP_of_memory {s : State} (hmem : ∀ b, s.memoryAt b) (zp : Byte) :
    s.read16ZP zp =
      (joinBytes (s.byteAt (BitVec.ofNat 16 ((zp.toNat + 1) % 256))) (s.byteAt (BitVec.ofNat 16 zp.toNat)), s) :=
  (read16ZP_eq_readPair s zp).trans (readPair_of_isMemory (hmem _) (hmem _))

theorem indirectX_address_of_memory {s : State} (hmem : ∀ b, s.memoryAt b) (zp : Byte) :
    (MemMode.indirectX zp).address s =
      (joinBytes (s.byteAt (BitVec.ofNat 16 ((zp.toNat + s.x.toNat + 1) % 256)))
        (s.byteAt (BitVec.ofNat 16 ((zp.toNat + s.x.toNat) % 256))), s) := by
  have hptr : (zp + s.x).toNat = (zp.toNat + s.x.toNat) % 256 := BitVec.toNat_add zp s.x
  rw [MemMode.address, read16ZP_of_memory hmem, hptr, Nat.mod_add_mod]

theorem indirectY_address (s : State) (zp : Byte) :
    (MemMode.indirectY zp).address s =
      (BitVec.ofNat 16 (((s.read16ZP zp).1.toNat + s.y.toNat) % 65536), (s.read16ZP zp).2) := by
  rw [MemMode.address, add_zeroExtend16]

theorem indirectY_address_of_memory {s : State} (hmem : ∀ b, s.memoryAt b) (zp : Byte) :
    (MemMode.indirectY zp).address s =
      (BitVec.ofNat 16 (((s.byteAt (BitVec.ofNat 16 ((zp.toNat + 1) % 256))).toNat * 256 +
        (s.byteAt (BitVec.ofNat 16 zp.toNat)).toNat + s.y.toNat) % 65536), s) := by
  rw [indirectY_address, read16ZP_of_memory hmem, joinBytes_toNat]

/-- Settles O26: each mode's sum with its modulus, and the two pointers by Read16ZP. -/
theorem effectiveAddresses : Obligations.EffectiveAddresses := by
  intro s zp addr
  refine ⟨?zeroPage, ?zeroPageX, ?zeroPageY, rfl, ?absoluteX, ?absoluteY, ?indirectX, indirectY_address s zp,
    fun hmem => ⟨indirectX_address_of_memory hmem zp, indirectY_address_of_memory hmem zp⟩⟩
  case zeroPage => rw [MemMode.address, zeroExtend16_eq_ofNat]
  case zeroPageX => rw [MemMode.address, zeroExtend16_add]
  case zeroPageY => rw [MemMode.address, zeroExtend16_add]
  case absoluteX => rw [MemMode.address, add_zeroExtend16]
  case absoluteY => rw [MemMode.address, add_zeroExtend16]
  case indirectX => rw [MemMode.address, byte_add_eq_ofNat]

end Sys2Proof.Machine
end

section
/-! PROOFS. Arithmetic (40_arithmetic.md): the addition and subtraction helpers, binary (R110, R112) and decimal (R111, R113),
and the instructions ADC, SBC (R115, R116), CMP, CPX and CPY (R114, R117 to R119). -/

namespace Sys2Proof.Machine

open Sys2Proof

/-! ### The nibbles and bit 7 of a byte -/

theorem and_0x0F_toNat (v : Byte) : (v &&& 0x0F).toNat = v.toNat % 16 := by
  rw [BitVec.toNat_and]
  exact Nat.and_two_pow_sub_one_eq_mod v.toNat 4

theorem and_0xF0_toNat : ∀ v : Byte, (v &&& 0xF0).toNat = v.toNat / 16 * 16 := by decide

theorem and_0x80_ne_zero : ∀ v : Byte, (v &&& 0x80 != 0) = v.getLsbD 7 := by decide

theorem nat_and_0x80_ne_zero (n : Nat) : (n &&& 0x80 != 0) = n.testBit 7 := by
  have hbit : n &&& 0x80 = (n.testBit 7).toNat * 2 ^ 7 := Nat.and_two_pow n 7
  rw [hbit]
  cases n.testBit 7 <;> rfl

theorem testBit_seven (n : Nat) : n.testBit 7 = decide (n / 128 % 2 = 1) := Nat.testBit_eq_decide_div_mod_eq

theorem getLsbD_seven (v : Byte) : v.getLsbD 7 = decide (128 ≤ v.toNat) :=
  (BitVec.msb_eq_getLsbD_last v).symm.trans (BitVec.msb_eq_decide v)

/-- R110's `signed8`. -/
theorem byte_toInt (v : Byte) : v.toInt = if 128 ≤ v.toNat then (v.toNat : Int) - 256 else v.toNat := by
  rw [BitVec.toInt_eq_toNat_cond]
  split <;> split <;> omega

/-! ### Binary addition (R110) -/

section binary

variable (a m : Byte) (c : Bool)

theorem addBin_r_toNat : (addBin a m c).r.toNat = (a.toNat + m.toNat + c.toNat) % 256 := BitVec.toNat_ofNat ..

theorem addBin_c_iff : (addBin a m c).c = true ↔ 256 ≤ a.toNat + m.toNat + c.toNat := decide_eq_true_iff

/-- V is the bit 7 rule: the result's bit 7 differs from that of both operands. -/
theorem addBin_v : (addBin a m c).v =
    ((a.getLsbD 7 ^^ (addBin a m c).r.getLsbD 7) && (m.getLsbD 7 ^^ (addBin a m c).r.getLsbD 7)) := by
  simp only [addBin, and_0x80_ne_zero, BitVec.getLsbD_and, BitVec.getLsbD_xor]

theorem addBin_n : (addBin a m c).n = (addBin a m c).r.getLsbD 7 := rfl

theorem addBin_z_iff : (addBin a m c).z = true ↔ (addBin a m c).r = 0 := beq_iff_eq

theorem addBin_v_iff_bits :
    (addBin a m c).v = true ↔ a.getLsbD 7 = m.getLsbD 7 ∧ (addBin a m c).r.getLsbD 7 ≠ a.getLsbD 7 := by
  rw [addBin_v]
  cases a.getLsbD 7 <;> cases m.getLsbD 7 <;> simp

/-- V is signed overflow. -/
theorem addBin_v_iff_range :
    (addBin a m c).v = true ↔ a.toInt + m.toInt + c.toNat < -128 ∨ 127 < a.toInt + m.toInt + c.toNat := by
  have hr := addBin_r_toNat a m c
  have hc := c.toNat_le
  rw [addBin_v_iff_bits, byte_toInt, byte_toInt]
  simp only [getLsbD_seven, ne_eq, decide_eq_decide]
  omega

/-! ### Binary subtraction (R112) -/

theorem subBin_r_toNat :
    ((subBin a m c).r.toNat : Int) = ((a.toNat : Int) - m.toNat - (1 - c.toNat)) % 256 := by
  simp only [subBin, BitVec.toNat_ofInt]
  omega

theorem subBin_c_iff : (subBin a m c).c = true ↔ (0 : Int) ≤ (a.toNat : Int) - m.toNat - (1 - c.toNat) := decide_eq_true_iff

theorem subBin_v : (subBin a m c).v =
    ((a.getLsbD 7 ^^ m.getLsbD 7) && (a.getLsbD 7 ^^ (subBin a m c).r.getLsbD 7)) := by
  simp only [subBin, and_0x80_ne_zero, BitVec.getLsbD_and, BitVec.getLsbD_xor]

theorem aluResult_ext {p q : AluResult} (hr : p.r = q.r) (hc : p.c = q.c) (hv : p.v = q.v) (hn : p.n = q.n)
    (hz : p.z = q.z) : p = q := by
  cases p
  cases q
  simp_all

/-- In two's complement the complement is one below the negation. -/
theorem complement_toInt (v : Byte) : (~~~v).toInt = -v.toInt - 1 := by
  have hv := v.isLt
  rw [byte_toInt, byte_toInt, BitVec.toNat_not]
  omega

theorem subBin_r_eq_addBin_complement : (subBin a m c).r = (addBin a (~~~m) c).r := by
  have hsub := subBin_r_toNat a m c
  have hadd := addBin_r_toNat a (~~~m) c
  rw [BitVec.toNat_not] at hadd
  apply BitVec.eq_of_toNat_eq
  omega

/-- To subtract with borrow is to add the complement with carry. -/
theorem subBin_eq_addBin_complement : subBin a m c = addBin a (~~~m) c := by
  have hr := subBin_r_eq_addBin_complement a m c
  refine aluResult_ext hr ?c ?v (congrArg (BitVec.getLsbD · 7) hr) (congrArg (· == 0) hr)
  case c =>
    have hm := m.isLt
    rw [Bool.eq_iff_iff, subBin_c_iff, addBin_c_iff, BitVec.toNat_not]
    omega
  case v =>
    rw [subBin_v, addBin_v, hr, BitVec.getLsbD_not]
    cases a.getLsbD 7 <;> cases m.getLsbD 7 <;> simp

/-- V is signed overflow. -/
theorem subBin_v_iff_range :
    (subBin a m c).v = true ↔ a.toInt - m.toInt - (1 - c.toNat) < -128 ∨ 127 < a.toInt - m.toInt - (1 - c.toNat) := by
  rw [subBin_eq_addBin_complement, addBin_v_iff_range, complement_toInt]
  omega

end binary

/-- Settles O27: each result's own equation. -/
theorem addBinIsExactSum : Obligations.AddBinIsExactSum := fun a m c =>
  ⟨addBin_r_toNat a m c, addBin_c_iff a m c, addBin_v_iff_range a m c, addBin_v_iff_bits a m c, addBin_n a m c,
    addBin_z_iff a m c⟩

/-- Settles O29: each result's own equation, V's range and the last clause by the addition of the complement. -/
theorem subBinIsExactDifference : Obligations.SubBinIsExactDifference := fun a m c =>
  ⟨subBin_r_toNat a m c, subBin_c_iff a m c, subBin_v_iff_range a m c, rfl, beq_iff_eq,
    subBin_eq_addBin_complement a m c⟩

/-! ### Decimal addition (R111) -/

/-- The low digits' sum, adjusted: 6 is added and the carry into the high digit is 16. -/
def adjustLow (lo : Nat) : Nat := if 10 ≤ lo then (lo + 6) % 16 + 16 else lo

/-- The sum before its high digit is adjusted: N and V are taken from it. -/
def decimalSum (a m : Byte) (c : Bool) : Nat :=
  a.toNat / 16 * 16 + m.toNat / 16 * 16 + adjustLow (a.toNat % 16 + m.toNat % 16 + c.toNat)

/-- The sum with its high digit adjusted. -/
def adjustHigh (sum : Nat) : Nat := if 160 ≤ sum then sum + 96 else sum

/-- AddDec in digits: the masks of the model are remainders and quotients by 16. -/
theorem addDec_eq (a m : Byte) (c : Bool) :
    addDec a m c =
      { r := BitVec.ofNat 8 (adjustHigh (decimalSum a m c))
        c := decide (256 ≤ adjustHigh (decimalSum a m c))
        v := (a.toNat.testBit 7 ^^ (decimalSum a m c).testBit 7) && (m.toNat.testBit 7 ^^ (decimalSum a m c).testBit 7)
        n := (decimalSum a m c).testBit 7
        z := (a.toNat + m.toNat + c.toNat) % 256 == 0 } := by
  have hnibble (n : Nat) : n &&& 0x0F = n % 16 := Nat.and_two_pow_sub_one_eq_mod n 4
  simp only [addDec, and_0x0F_toNat, and_0xF0_toNat, nat_and_0x80_ne_zero, Nat.testBit_and, Nat.testBit_xor, hnibble]
  rfl

section decimalAddition

variable (a m : Byte) (c : Bool)

theorem addDec_r_toNat : (addDec a m c).r.toNat = adjustHigh (decimalSum a m c) % 256 := by
  rw [addDec_eq, BitVec.toNat_ofNat]

theorem addDec_c_iff : (addDec a m c).c = true ↔ 256 ≤ adjustHigh (decimalSum a m c) := by
  rw [addDec_eq, decide_eq_true_iff]

theorem addDec_n_iff : (addDec a m c).n = true ↔ decimalSum a m c / 128 % 2 = 1 := by
  simp only [addDec_eq, testBit_seven, decide_eq_true_iff]

theorem addDec_v_iff : (addDec a m c).v = true ↔
    a.toNat / 128 = m.toNat / 128 ∧ decimalSum a m c / 128 % 2 ≠ a.toNat / 128 := by
  have ha := a.isLt
  have hm := m.isLt
  rw [addDec_eq]
  simp only [testBit_seven, Bool.and_eq_true, Bool.xor_iff_ne, ne_eq, decide_eq_decide]
  omega

theorem addDec_z_iff : (addDec a m c).z = true ↔ (a.toNat + m.toNat + c.toNat) % 256 = 0 := by
  rw [addDec_eq, beq_iff_eq]

end decimalAddition

/-- Two BCD digits and a carry make a digit and a carry of 16. -/
theorem adjustLow_of_le {lo : Nat} (h : lo ≤ 19) : adjustLow lo = lo / 10 * 16 + lo % 10 := by
  unfold adjustLow
  split <;> omega

/-- On valid BCD the adjusted sum has the three decimal digits of the sum, the hundreds in bit 8. -/
theorem adjustHigh_decimalSum_of_isBcd {a m : Byte} (c : Bool) (ha : isBcd a) (hm : isBcd m) {n : Nat}
    (hn : n = bcdValue a + bcdValue m + c.toNat) :
    adjustHigh (decimalSum a m c) = n / 100 * 256 + n % 100 / 10 * 16 + n % 10 := by
  obtain ⟨haHigh, haLow⟩ := ha
  obtain ⟨hmHigh, hmLow⟩ := hm
  have hc := c.toNat_le
  have hlow := adjustLow_of_le (lo := a.toNat % 16 + m.toNat % 16 + c.toNat) (by omega)
  simp only [decimalSum, hlow, adjustHigh]
  simp only [bcdValue] at hn
  split <;> omega

theorem addDec_of_isBcd {a m : Byte} (c : Bool) (ha : isBcd a) (hm : isBcd m) :
    (addDec a m c).r = toBcd ((bcdValue a + bcdValue m + c.toNat) % 100) ∧
      ((addDec a m c).c = true ↔ 100 ≤ bcdValue a + bcdValue m + c.toNat) := by
  have htotal := adjustHigh_decimalSum_of_isBcd c ha hm rfl
  constructor
  · apply BitVec.eq_of_toNat_eq
    rw [addDec_r_toNat, htotal, toBcd, BitVec.toNat_ofNat]
    omega
  · rw [addDec_c_iff, htotal]
    omega

/-- Settles O28: AddDec in digits, and the refusal of ADC. -/
theorem addDecOnEveryOperand : Obligations.AddDecOnEveryOperand := fun a m c =>
  ⟨addDec_r_toNat a m c, addDec_c_iff a m c, addDec_n_iff a m c, addDec_v_iff a m c, addDec_z_iff a m c,
    addDec_of_isBcd c, fun _ s hi hd hmode => exec_arith_refused (by simp [hi]) ((refusesDecimal_iff s).2 ⟨hd, hmode⟩)⟩

/-! ### Decimal subtraction (R113) -/

/-- The low digits' difference, adjusted: 6 is subtracted and the borrow from the high digit is 16. -/
def borrowLow (lo : Int) : Int := if lo < 0 then (lo - 6) % 16 - 16 else lo

/-- The difference before its high digit is adjusted. -/
def decimalDiff (a m : Byte) (c : Bool) : Int :=
  (a.toNat : Int) / 16 * 16 - (m.toNat : Int) / 16 * 16 +
    borrowLow ((a.toNat : Int) % 16 - (m.toNat : Int) % 16 + c.toNat - 1)

/-- The difference with its high digit adjusted. -/
def borrowHigh (diff : Int) : Int := if diff < 0 then diff - 96 else diff

/-- SubDec in digits: the masks of the model are remainders and quotients by 16. -/
theorem subDec_eq (a m : Byte) (c : Bool) :
    subDec a m c = { subBin a m c with r := BitVec.ofInt 8 (borrowHigh (decimalDiff a m c)) } := by
  simp only [subDec, and_0x0F_toNat, and_0xF0_toNat, Nat.cast_mul, Int.natCast_mod, Int.natCast_div]
  rfl

theorem subDec_r_toNat (a m : Byte) (c : Bool) :
    ((subDec a m c).r.toNat : Int) = borrowHigh (decimalDiff a m c) % 256 := by
  rw [subDec_eq, BitVec.toNat_ofInt]
  omega

/-- Two BCD digits and a borrow make a digit and a borrow of 16. -/
theorem borrowLow_of_le {lo : Int} (h : -10 ≤ lo) (h' : lo ≤ 9) : borrowLow lo = lo / 10 * 16 + lo % 10 := by
  unfold borrowLow
  split <;> omega

/-- On valid BCD the adjusted difference has the decimal digits of the difference modulo 100, a borrow in bit 8. -/
theorem borrowHigh_decimalDiff_of_isBcd {a m : Byte} (c : Bool) (ha : isBcd a) (hm : isBcd m) {n : Int}
    (hn : n = (bcdValue a : Int) - bcdValue m - (1 - c.toNat)) :
    borrowHigh (decimalDiff a m c) = n / 100 * 256 + n % 100 / 10 * 16 + n % 10 := by
  obtain ⟨haHigh, haLow⟩ := ha
  obtain ⟨hmHigh, hmLow⟩ := hm
  have hc := c.toNat_le
  have hlow := borrowLow_of_le (lo := (a.toNat : Int) % 16 - (m.toNat : Int) % 16 + c.toNat - 1) (by omega) (by omega)
  simp only [decimalDiff, hlow, borrowHigh]
  simp only [bcdValue] at hn
  split <;> omega

theorem subDec_of_isBcd {a m : Byte} (c : Bool) (ha : isBcd a) (hm : isBcd m) :
    (subDec a m c).r = toBcd ((((bcdValue a : Int) - bcdValue m - (1 - c.toNat)) % 100).toNat) ∧
      ((subDec a m c).c = true ↔ (0 : Int) ≤ (bcdValue a : Int) - bcdValue m - (1 - c.toNat)) := by
  have hr := subDec_r_toNat a m c
  rw [borrowHigh_decimalDiff_of_isBcd c ha hm rfl] at hr
  constructor
  · apply BitVec.eq_of_toNat_eq
    rw [toBcd, BitVec.toNat_ofNat]
    omega
  · obtain ⟨haHigh, haLow⟩ := ha
    obtain ⟨hmHigh, hmLow⟩ := hm
    have hc := c.toNat_le
    simp only [subDec_eq, subBin_c_iff, bcdValue]
    omega

/-- Settles O30: SubDec in digits, and the refusal of SBC. -/
theorem subDecOnEveryOperand : Obligations.SubDecOnEveryOperand := fun a m c =>
  ⟨subDec_r_toNat a m c, rfl, rfl, rfl, rfl, subDec_of_isBcd c,
    fun _ s hi hd hmode => exec_arith_refused (by simp [hi]) ((refusesDecimal_iff s).2 ⟨hd, hmode⟩)⟩

/-! ### What an instruction that reads its operand keeps -/

/-- PC goes to the next instruction; X, Y, S, memory and the setting are as they were, and the bus as the operand's read left
it. -/
def OperandRead (src : Source) (s t : State) : Prop :=
  t.pc = s.pc + BitVec.ofNat 16 src.length ∧ SameXYS s t ∧ SameMemory s t ∧ SameSetting s t ∧ SameBus (src.load s).2 t

/-- Reading the operand, then writing A and the flags, is no more than that. -/
theorem operandRead_setA_setP (src : Source) (s : State) (v : Byte) (p : Flags) :
    OperandRead src s ((((src.load s).2.setA v).setP p).advance src.length) :=
  ⟨by simp, ⟨by simp, by simp, by simp⟩, sameMemory_of_mem_eq (by simp), by simp [sameSetting_iff], ⟨rfl, rfl, rfl⟩⟩

section operandRead

variable (src : Source) (s : State)

theorem adc_operandRead : OperandRead src s (adc src s) := operandRead_setA_setP src s _ _

theorem sbc_operandRead : OperandRead src s (sbc src s) := operandRead_setA_setP src s _ _

/-- A compare leaves in A what the operand's read left there. -/
theorem compareWith_operandRead (reg : Byte) : OperandRead src s (compareWith reg src s) :=
  operandRead_setA_setP src s (src.load s).2.a _

end operandRead

/-! ### ADC and SBC (R115, R116) -/

/-- Where decimal mode is not refused, an ADC or SBC goes on to the state of the shared operation. -/
theorem exec_arith_next {i : Instr} {s t : State} (h : exec i s = unlessDecimalRefused s t)
    (hdec : s.p.d = false ∨ s.platform.decimalMode = .nmos) : exec i s = .next t :=
  h.trans (unlessDecimalRefused_next t (refusesDecimal_eq_false hdec))

/-- Settles O32: the form's operand, and what the shared ADC writes and keeps. -/
theorem adcAddsMemoryAndCarry : Obligations.AdcAddsMemoryAndCarry := by
  intro i s hi hdec
  obtain ⟨src, hoperand, hlength, hexec, hop⟩ := adc_forms s hi
  obtain ⟨ha, -, -, -, hp, -⟩ := adc_registers src s
  exact ⟨src, adc src s, hoperand, hop, exec_arith_next hexec hdec, ⟨ha, hp⟩, hlength ▸ adc_operandRead src s⟩

/-- Settles O33: the form's operand, and what the shared SBC writes and keeps. -/
theorem sbcSubtractsWithBorrow : Obligations.SbcSubtractsWithBorrow := by
  intro i s hi hdec
  obtain ⟨src, hoperand, hlength, hexec, hop⟩ := sbc_forms s hi
  obtain ⟨ha, -, -, -, hp, -⟩ := sbc_registers src s
  exact ⟨src, sbc src s, hoperand, hop, exec_arith_next hexec hdec, ⟨ha, hp⟩, hlength ▸ sbc_operandRead src s⟩

/-! ### The compares (R114, R117 to R119) -/

/-- A compare's N is bit 7 of the difference modulo 256. -/
theorem compareFlags_eq (reg m : Byte) (p : Flags) :
    compareFlags reg m p =
      { p with
        c := decide (m.toNat ≤ reg.toNat)
        z := decide (reg = m)
        n := decide (128 ≤ (reg.toNat + 256 - m.toNat) % 256) } := by
  have hdiff : (reg - m).toNat = (reg.toNat + 256 - m.toNat) % 256 := by bv_omega
  rw [compareFlags, getLsbD_seven, hdiff]
  rfl

/-- Whichever the mnemonic, a compare is the shared operation on the register it names. -/
theorem compare_forms {i : Instr} {s : State} {reg : Byte} {rows : List (Nat × AddrMode)}
    (h : (i.mnemonic, reg, rows) ∈
      [(.cmp, s.a, [(0xC9, .immediate), (0xC5, .zeroPage), (0xD5, .zeroPageX), (0xCD, .absolute), (0xDD, .absoluteX),
        (0xD9, .absoluteY), (0xC1, .indirectX), (0xD1, .indirectY)]),
       (.cpx, s.x, [(0xE0, .immediate), (0xE4, .zeroPage), (0xEC, .absolute)]),
       (.cpy, s.y, [(0xC0, .immediate), (0xC4, .zeroPage), (0xCC, .absolute)])]) :
    ∃ src : Source, i.operand = src.operand ∧ i.length = src.length ∧ exec i s = .next (compareWith reg src s) ∧
      HasOpcode i rows := by
  simp only [List.mem_cons, Prod.mk.injEq, List.not_mem_nil, or_false] at h
  obtain ⟨hi, rfl, rfl⟩ | ⟨hi, rfl, rfl⟩ | ⟨hi, rfl, rfl⟩ := h
  · exact cmp_forms s hi
  · exact cpx_forms s hi
  · exact cpy_forms s hi

/-- Settles O34: the form's operand, and what the shared compare writes and keeps. -/
theorem comparesWriteThreeFlags : Obligations.ComparesWriteThreeFlags := by
  intro i s reg rows hi
  obtain ⟨src, hoperand, hlength, hexec, hop⟩ := compare_forms hi
  obtain ⟨ha, -, -, -, hp, -⟩ := compareWith_registers src s reg
  exact ⟨src, compareWith reg src s, hoperand, hop, hexec, hp.trans (compareFlags_eq ..), ha,
    hlength ▸ compareWith_operandRead src s reg⟩

end Sys2Proof.Machine
end

section
/-! PROOFS. Logic (41_logic.md): AND, EOR, ORA (R125 to R127) and BIT (R128). -/

namespace Sys2Proof.Machine

open Sys2Proof

/-! ### AND, EOR, ORA (R125 to R127) -/

/-- SetNZ (00_scope.md R7), with Z as a proposition. -/
theorem setNZ_eq (v : Byte) (p : Flags) : setNZ v p = { p with n := v.getLsbD 7, z := decide (v = 0) } := rfl

theorem logic_operandRead (op : Byte → Byte → Byte) (src : Source) (s : State) : OperandRead src s (logic op src s) :=
  operandRead_setA_setP src s _ _

/-- Whichever the mnemonic, the shared operation runs on the operation on bytes that is `op` on each bit. -/
theorem logic_forms {i : Instr} (s : State) {op : Bool → Bool → Bool} {rows : List (Nat × AddrMode)}
    (h : i.mnemonic = .andA ∧ op = and ∧
        rows = [(0x29, .immediate), (0x25, .zeroPage), (0x35, .zeroPageX), (0x2D, .absolute), (0x3D, .absoluteX),
          (0x39, .absoluteY), (0x21, .indirectX), (0x31, .indirectY)] ∨
      i.mnemonic = .eor ∧ op = xor ∧
        rows = [(0x49, .immediate), (0x45, .zeroPage), (0x55, .zeroPageX), (0x4D, .absolute), (0x5D, .absoluteX),
          (0x59, .absoluteY), (0x41, .indirectX), (0x51, .indirectY)] ∨
      i.mnemonic = .ora ∧ op = or ∧
        rows = [(0x09, .immediate), (0x05, .zeroPage), (0x15, .zeroPageX), (0x0D, .absolute), (0x1D, .absoluteX),
          (0x19, .absoluteY), (0x01, .indirectX), (0x11, .indirectY)]) :
    ∃ (byteOp : Byte → Byte → Byte) (src : Source),
      (∀ a m k, (byteOp a m).getLsbD k = op (a.getLsbD k) (m.getLsbD k)) ∧
      i.operand = src.operand ∧ i.length = src.length ∧ exec i s = .next (logic byteOp src s) ∧ HasOpcode i rows := by
  obtain ⟨hi, rfl, rfl⟩ | ⟨hi, rfl, rfl⟩ | ⟨hi, rfl, rfl⟩ := h
  · obtain ⟨src, hform⟩ := and_forms s hi
    exact ⟨(· &&& ·), src, fun _ _ _ => BitVec.getLsbD_and, hform⟩
  · obtain ⟨src, hform⟩ := eor_forms s hi
    exact ⟨(· ^^^ ·), src, fun _ _ _ => BitVec.getLsbD_xor, hform⟩
  · obtain ⟨src, hform⟩ := ora_forms s hi
    exact ⟨(· ||| ·), src, fun _ _ _ => BitVec.getLsbD_or, hform⟩

/-- Settles O35: the form's operand, and what the shared operation writes and keeps. -/
theorem logicWritesAccumulator : Obligations.LogicWritesAccumulator := by
  intro i s op rows hi
  obtain ⟨byteOp, src, hbits, hoperand, hlength, hexec, hop⟩ := logic_forms s hi
  obtain ⟨ha, -, -, -, hp, -⟩ := logic_registers src s byteOp
  refine ⟨src, logic byteOp src s, hoperand, hop, hexec, fun k _ => ?bits, ?flags,
    hlength ▸ logic_operandRead byteOp src s⟩
  case bits => rw [ha, hbits]
  case flags => rw [hp, ha, setNZ_eq]

/-! ### BIT (R128) -/

/-- BIT writes no A: it leaves there what the operand's read left. -/
theorem bitTest_operandRead (mode : MemMode) (s : State) : OperandRead (.memory mode) s (bitTest mode s) :=
  operandRead_setA_setP (.memory mode) s (mode.load s).2.a _

/-- BIT's Z: A and M have no bit in common. -/
theorem bitFlags_z_iff (a m : Byte) (p : Flags) :
    (bitFlags a m p).z = true ↔ ∀ k < 8, (a.getLsbD k && m.getLsbD k) = false := by
  calc (bitFlags a m p).z = true
    _ ↔ a &&& m = 0 := beq_iff_eq
    _ ↔ ∀ k < 8, (a &&& m).getLsbD k = (0 : Byte).getLsbD k := BitVec.eq_of_getLsbD_eq_iff
    _ ↔ ∀ k < 8, (a.getLsbD k && m.getLsbD k) = false := by
      simp only [BitVec.getLsbD_and, BitVec.ofNat_eq_ofNat, BitVec.getLsbD_zero]

/-- Settles O36: the form's operand, and what the shared operation writes and keeps. -/
theorem bitTestsMemory : Obligations.BitTestsMemory := by
  intro i s hi
  obtain ⟨mode, hoperand, hlength, hexec, hop⟩ := bit_forms s hi
  obtain ⟨ha, -, -, -, hp, -⟩ := bitTest_registers s mode
  exact ⟨mode, bitTest mode s, hoperand, hop, hexec, ⟨hp ▸ bitFlags_z_iff .., hp ▸ rfl⟩, ha,
    hlength ▸ bitTest_operandRead mode s⟩

end Sys2Proof.Machine
end

section
/-! PROOFS. Shifts and rotates (42_shift_rotate.md): the result of each as a number (R130 to R133), what the shared
operation replaces and keeps (R134), and the instructions ASL, LSR, ROL and ROR. -/

namespace Sys2Proof.Machine

open Sys2Proof

/-! ### The read-modify-write (R134) -/

theorem modify_byteStored (m : MemMode) (f : Byte → Flags → Byte × Flags) (s : State) :
    ByteStored s (m.modify f s) (m.address s).1 (f (m.load s).1 s.p).1 := modify_byteAt m f s

/-- After the operand's read, the bus sees the one write of the result. -/
theorem modify_busStored (m : MemMode) (f : Byte → Flags → Byte × Flags) (s : State) :
    BusStored (m.load s).2 (m.modify f s) (m.address s).1 (f (m.load s).1 s.p).1 :=
  ⟨busWrite_answers .., busWrite_busLog .., busWrite_freeCount ..⟩

theorem shift_targetReplaced (f : Byte → Flags → Byte × Flags) (target : Target) (s : State) :
    TargetReplaced target s (shift f target s) (f (targetValue target s) s.p).1 := by
  cases target with
  | accumulator => exact ⟨rfl, sameMemory_of_mem_eq rfl, rfl, rfl, rfl⟩
  | memory m =>
    obtain ⟨hanswers, hlog, hfree⟩ := modify_busStored m f s
    exact ⟨modify_a m f s, modify_byteStored m f s, hanswers, hlog, hfree⟩

/-- Where the operation on bytes gives `r` and the flags `q`, `r` goes to the target, `q` to P, PC goes to the next
instruction, and X, Y, S and the setting are as they were. -/
theorem shift_of_byte {f : Byte → Flags → Byte × Flags} {target : Target} {s : State} {r : Byte} {q : Flags}
    (h : f (targetValue target s) s.p = (r, q)) :
    (TargetReplaced target s (shift f target s) r ∧ (shift f target s).p = q) ∧
      (shift f target s).pc = s.pc + BitVec.ofNat 16 target.length ∧ SameXYS s (shift f target s) ∧
      SameSetting s (shift f target s) := by
  obtain ⟨hx, hy, hs, hp, hpc⟩ := shift_registers f s target
  have hreplaced := shift_targetReplaced f target s
  rw [h] at hp hreplaced
  exact ⟨⟨hreplaced, hp⟩, hpc, ⟨hx, hy, hs⟩, shift_sameSetting f s target⟩

/-! ### The results as numbers (R130 to R133) -/

theorem ofNat_beq_zero {r : Nat} (h : r < 256) : (BitVec.ofNat 8 r == 0) = decide (r = 0) := by
  have hr : (BitVec.ofNat 8 r).toNat = r := Nat.mod_eq_of_lt h
  rw [Bool.eq_iff_iff, beq_iff_eq, decide_eq_true_iff, ← BitVec.toNat_inj, hr]
  rfl

/-- SetNZ (00_scope.md R7) of a byte given by its number. -/
theorem setNZ_ofNat {r : Nat} (h : r < 256) (p : Flags) :
    setNZ (BitVec.ofNat 8 r) p = { p with n := decide (128 ≤ r), z := decide (r = 0) } := by
  have hr : (BitVec.ofNat 8 r).toNat = r := Nat.mod_eq_of_lt h
  simp only [setNZ, getLsbD_seven, hr, ofNat_beq_zero h]

theorem getLsbD_zero_eq (v : Byte) : v.getLsbD 0 = decide (v.toNat % 2 = 1) := Nat.testBit_zero v.toNat

theorem shiftLeft_one_eq (v : Byte) : v <<< 1 = BitVec.ofNat 8 (v.toNat * 2 % 256) := by
  apply BitVec.eq_of_toNat_eq
  rw [BitVec.toNat_shiftLeft, BitVec.toNat_ofNat, Nat.shiftLeft_eq]
  omega

theorem ushiftRight_one_eq (v : Byte) : v >>> 1 = BitVec.ofNat 8 (v.toNat / 2) := by
  apply BitVec.eq_of_toNat_eq
  rw [BitVec.toNat_ushiftRight, BitVec.toNat_ofNat, Nat.shiftRight_eq_div_pow]
  omega

/-- Bit 0 of the doubled byte is 0, so that the carry is added there. -/
theorem rotateLeft_eq (v : Byte) (c : Bool) :
    v <<< 1 ||| BitVec.ofNat 8 c.toNat = BitVec.ofNat 8 (v.toNat * 2 % 256 + c.toNat) := by
  have hc : c.toNat < 2 ^ 1 := c.toNat_lt
  have heven : v.toNat * 2 % 256 = 2 ^ 1 * (v.toNat % 128) := by omega
  rw [shiftLeft_one_eq, ← BitVec.ofNat_or, heven, Nat.two_pow_add_eq_or_of_lt hc]

/-- Bit 7 of the halved byte is 0, so that the carry is added there. -/
theorem rotateRight_eq (v : Byte) (c : Bool) :
    v >>> 1 ||| BitVec.ofNat 8 (c.toNat * 128) = BitVec.ofNat 8 (v.toNat / 2 + c.toNat * 128) := by
  have hv : v.toNat / 2 < 2 ^ 7 := by omega
  have hhigh : c.toNat * 128 = 2 ^ 7 * c.toNat := Nat.mul_comm ..
  rw [ushiftRight_one_eq, ← BitVec.ofNat_or, hhigh, Nat.or_comm, ← Nat.two_pow_add_eq_or_of_lt hv, Nat.add_comm]

section byte

variable (v : Byte) (p : Flags)

theorem aslByte_eq :
    aslByte v p =
      (BitVec.ofNat 8 (v.toNat * 2 % 256),
        { p with
          c := decide (128 ≤ v.toNat)
          n := decide (128 ≤ v.toNat * 2 % 256)
          z := decide (v.toNat * 2 % 256 = 0) }) := by
  have hr : v.toNat * 2 % 256 < 256 := Nat.mod_lt _ (by decide)
  simp only [aslByte, shiftLeft_one_eq, getLsbD_seven, setNZ_ofNat hr]

theorem lsrByte_eq :
    lsrByte v p =
      (BitVec.ofNat 8 (v.toNat / 2),
        { p with c := decide (v.toNat % 2 = 1), n := false, z := decide (v.toNat / 2 = 0) }) := by
  have hr : v.toNat / 2 < 256 := by omega
  simp only [lsrByte, ushiftRight_one_eq, getLsbD_zero_eq, ofNat_beq_zero hr]

theorem rolByte_eq :
    rolByte v p =
      (BitVec.ofNat 8 (v.toNat * 2 % 256 + p.c.toNat),
        { p with
          c := decide (128 ≤ v.toNat)
          n := decide (128 ≤ v.toNat * 2 % 256 + p.c.toNat)
          z := decide (v.toNat * 2 % 256 + p.c.toNat = 0) }) := by
  have hc := p.c.toNat_le
  have hr : v.toNat * 2 % 256 + p.c.toNat < 256 := by omega
  simp only [rolByte, rotateLeft_eq, getLsbD_seven, setNZ_ofNat hr]

/-- The result's bit 7 is the carry shifted in. -/
theorem rorByte_eq :
    rorByte v p =
      (BitVec.ofNat 8 (v.toNat / 2 + p.c.toNat * 128),
        { p with
          c := decide (v.toNat % 2 = 1)
          n := p.c
          z := decide (v.toNat / 2 + p.c.toNat * 128 = 0) }) := by
  have hc := p.c.toNat_le
  have hr : v.toNat / 2 + p.c.toNat * 128 < 256 := by omega
  have hn : decide (128 ≤ v.toNat / 2 + p.c.toNat * 128) = p.c := by
    rw [Bool.eq_iff_iff, decide_eq_true_iff, ← Bool.toNat_eq_one]
    omega
  simp only [rorByte, rotateRight_eq, getLsbD_zero_eq, setNZ_ofNat hr, hn]

end byte

/-! ### ASL, LSR, ROL, ROR -/

/-- Settles O37: the form's operand, and what the shared shift does with ASL's byte and flags. -/
theorem aslShiftsLeft : Obligations.AslShiftsLeft := by
  intro i s hi
  obtain ⟨target, hoperand, hlength, hexec, hop⟩ := asl_forms s hi
  exact ⟨target, shift aslByte target s, hoperand, hop, hexec, hlength ▸ shift_of_byte (aslByte_eq ..)⟩

/-- Settles O38: the form's operand, and what the shared shift does with LSR's byte and flags. -/
theorem lsrShiftsRight : Obligations.LsrShiftsRight := by
  intro i s hi
  obtain ⟨target, hoperand, hlength, hexec, hop⟩ := lsr_forms s hi
  exact ⟨target, shift lsrByte target s, hoperand, hop, hexec, hlength ▸ shift_of_byte (lsrByte_eq ..)⟩

/-- Settles O39: the form's operand, and what the shared shift does with ROL's byte and flags. -/
theorem rolRotatesLeft : Obligations.RolRotatesLeft := by
  intro i s hi
  obtain ⟨target, hoperand, hlength, hexec, hop⟩ := rol_forms s hi
  exact ⟨target, shift rolByte target s, hoperand, hop, hexec, hlength ▸ shift_of_byte (rolByte_eq ..)⟩

/-- Settles O40: the form's operand, and what the shared shift does with ROR's byte and flags. -/
theorem rorRotatesRight : Obligations.RorRotatesRight := by
  intro i s hi
  obtain ⟨target, hoperand, hlength, hexec, hop⟩ := ror_forms s hi
  exact ⟨target, shift rorByte target s, hoperand, hop, hexec, hlength ▸ shift_of_byte (rorByte_eq ..)⟩

end Sys2Proof.Machine
end

section
/-! PROOFS. The conditional branches (43_branch.md): the displacement (30_encoding.md R95), the shared Branch (R140), and the
eight instructions (R141 to R148). -/

namespace Sys2Proof.Machine

open Sys2Proof

/-- The displacement is signed, and the target wraps around the address space. -/
theorem branchTarget_toNat (npc : Word) (disp : Byte) :
    ((branchTarget npc disp).toNat : Int) = ((npc.toNat : Int) + disp.toInt) % 65536 := by
  have hdisp : ((signExtend16 disp).toNat : Int) = disp.toInt % 65536 := by
    rw [signExtend16, BitVec.signExtend, BitVec.toNat_ofInt]
    omega
  rw [branchTarget, BitVec.toNat_add]
  omega

/-- Where Branch(cond) leaves PC: a branch not taken is one whose displacement is 0. -/
theorem branch_pc_toNat (cond : Bool) (disp : Byte) (s : State) :
    ((branch cond disp s).pc.toNat : Int) = ((s.pc.toNat : Int) + 2 + if cond then disp.toInt else 0) % 65536 := by
  have hnpc : (s.pc + 2).toNat = (s.pc.toNat + 2) % 65536 := BitVec.toNat_add ..
  cases cond with
  | false =>
    show ((s.pc + 2).toNat : Int) = (s.pc.toNat + 2 + 0) % 65536
    omega
  | true =>
    show ((branchTarget (s.pc + 2) disp).toNat : Int) = (s.pc.toNat + 2 + disp.toInt) % 65536
    rw [branchTarget_toNat]
    omega

/-- Branch(cond) writes PC only. -/
theorem branch_eq_set_pc (cond : Bool) (disp : Byte) (s : State) :
    branch cond disp s = { s with pc := (branch cond disp s).pc } := rfl

/-- Whichever the mnemonic, a branch is the shared Branch on the condition it names. -/
theorem branch_forms {i : Instr} {s : State} {op : Byte} {cond : Bool}
    (h : (i.mnemonic, op, cond) ∈
      [(.bcc, 0x90, !s.p.c), (.bcs, 0xB0, s.p.c), (.beq, 0xF0, s.p.z), (.bmi, 0x30, s.p.n), (.bne, 0xD0, !s.p.z),
       (.bpl, 0x10, !s.p.n), (.bvc, 0x50, !s.p.v), (.bvs, 0x70, s.p.v)]) :
    ∃ disp : Byte, i.operand = .relative disp ∧ encode i = [op, disp] ∧ exec i s = .next (branch cond disp s) := by
  simp only [List.mem_cons, Prod.mk.injEq, List.not_mem_nil, or_false] at h
  obtain ⟨hi, rfl, rfl⟩ | ⟨hi, rfl, rfl⟩ | ⟨hi, rfl, rfl⟩ | ⟨hi, rfl, rfl⟩ | ⟨hi, rfl, rfl⟩ | ⟨hi, rfl, rfl⟩ |
    ⟨hi, rfl, rfl⟩ | ⟨hi, rfl, rfl⟩ := h
  · obtain ⟨disp, rfl⟩ := bcc_form hi
    exact ⟨disp, rfl, rfl, rfl⟩
  · obtain ⟨disp, rfl⟩ := bcs_form hi
    exact ⟨disp, rfl, rfl, rfl⟩
  · obtain ⟨disp, rfl⟩ := beq_form hi
    exact ⟨disp, rfl, rfl, rfl⟩
  · obtain ⟨disp, rfl⟩ := bmi_form hi
    exact ⟨disp, rfl, rfl, rfl⟩
  · obtain ⟨disp, rfl⟩ := bne_form hi
    exact ⟨disp, rfl, rfl, rfl⟩
  · obtain ⟨disp, rfl⟩ := bpl_form hi
    exact ⟨disp, rfl, rfl, rfl⟩
  · obtain ⟨disp, rfl⟩ := bvc_form hi
    exact ⟨disp, rfl, rfl, rfl⟩
  · obtain ⟨disp, rfl⟩ := bvs_form hi
    exact ⟨disp, rfl, rfl, rfl⟩

/-- Settles O41: the form's displacement, and what the shared Branch does with PC. -/
theorem branchesMovePcOnly : Obligations.BranchesMovePcOnly := by
  intro i s op cond hi
  obtain ⟨disp, hoperand, hencode, hexec⟩ := branch_forms hi
  rw [branch_eq_set_pc] at hexec
  exact ⟨disp, (branch cond disp s).pc, hoperand, hencode, hexec, branch_pc_toNat cond disp s⟩

end Sys2Proof.Machine
end

section
/-! PROOFS. The flag instructions (44_flag.md R150 to R156). -/

namespace Sys2Proof.Machine

open Sys2Proof

/-- All that the shared flag operation writes: the flags it is given, and PC one byte on. -/
theorem flagOp_eq (p : Flags) (s : State) : flagOp p s = { s with p := p, pc := s.pc + 1 } := rfl

/-- An instruction whose meaning is the shared flag operation writes the flags and PC only. -/
theorem exec_flag_next {i : Instr} {p : Flags} {s : State} (h : exec i s = .next (flagOp p s)) :
    exec i s = .next { s with p := p, pc := s.pc + 1 } :=
  h.trans (congrArg _ (flagOp_eq p s))

/-- Settles O42: each instruction's opcode, and what the shared flag operation does with the flags that instruction gives it. -/
theorem flagInstructions : Obligations.FlagInstructions := by
  intro s
  refine ⟨?clc, ?cld, ?cli, ?clv, ?sec, ?sed, ?sei⟩
  case clc => exact ⟨rfl, exec_flag_next (p := { s.p with c := false }) rfl⟩
  case cld => exact ⟨rfl, exec_flag_next (p := { s.p with d := false }) rfl⟩
  case cli => exact ⟨rfl, exec_flag_next (p := { s.p with i := false }) rfl⟩
  case clv => exact ⟨rfl, exec_flag_next (p := { s.p with v := false }) rfl⟩
  case sec => exact ⟨rfl, exec_flag_next (p := { s.p with c := true }) rfl⟩
  case sed => exact ⟨rfl, exec_flag_next (p := { s.p with d := true }) rfl⟩
  case sei => exact ⟨rfl, exec_flag_next (p := { s.p with i := true }) rfl⟩

end Sys2Proof.Machine
end

section
/-! PROOFS. Increments and decrements (45_incdec.md): a byte one less or one more as a number, DEC and INC on memory
(R160, R163), and the index registers' DEX, DEY, INX, INY (R161, R162, R164, R165). -/

namespace Sys2Proof.Machine

open Sys2Proof

/-! ### One less and one more, as numbers -/

theorem add_one_eq (v : Byte) : v + 1 = BitVec.ofNat 8 ((v.toNat + 1) % 256) := byte_add_eq_ofNat v 1

/-- Taking 1 off a byte is adding its complement to 256. -/
theorem sub_one_eq (v : Byte) : v - 1 = BitVec.ofNat 8 ((v.toNat + 255) % 256) :=
  (BitVec.sub_eq_add_neg v 1).trans (byte_add_eq_ofNat v 255)

/-- The byte `delta` further on, modulo 256, and the flags with N and Z from it. -/
def countByte (delta : Nat) (v : Byte) (p : Flags) : Byte × Flags :=
  let r := (v.toNat + delta) % 256
  (BitVec.ofNat 8 r, { p with n := decide (128 ≤ r), z := decide (r = 0) })

theorem setNZ_count (n : Nat) (p : Flags) :
    setNZ (BitVec.ofNat 8 (n % 256)) p = { p with n := decide (128 ≤ n % 256), z := decide (n % 256 = 0) } :=
  setNZ_ofNat (Nat.mod_lt n (by decide)) p

theorem decByte_eq_countByte (v : Byte) (p : Flags) : decByte v p = countByte 255 v p := by
  rw [decByte, sub_one_eq, setNZ_count, countByte]

theorem incByte_eq_countByte (v : Byte) (p : Flags) : incByte v p = countByte 1 v p := by
  rw [incByte, add_one_eq, setNZ_count, countByte]

/-! ### DEC and INC (R160, R163) -/

/-- Where the operation on bytes gives `r` and the flags `q`, `r` goes to EA, `q` to P, PC goes to the next instruction, and
the registers and the setting are as they were. -/
theorem step1Memory_of_byte {f : Byte → Flags → Byte × Flags} {m : MemMode} {s : State} {r : Byte} {q : Flags}
    (h : f (m.load s).1 s.p = (r, q)) :
    (ByteStored s (step1Memory f m s) (m.address s).1 r ∧
        BusStored (m.load s).2 (step1Memory f m s) (m.address s).1 r ∧ (step1Memory f m s).p = q) ∧
      (step1Memory f m s).a = s.a ∧ (step1Memory f m s).pc = s.pc + BitVec.ofNat 16 m.length ∧
      SameXYS s (step1Memory f m s) ∧ SameSetting s (step1Memory f m s) := by
  obtain ⟨ha, hx, hy, hs, hp, hpc⟩ := step1Memory_registers f s m
  have hbyte : ByteStored s (step1Memory f m s) (m.address s).1 (f (m.load s).1 s.p).1 := modify_byteStored m f s
  obtain ⟨hanswers, hlog, hfree⟩ := modify_busStored m f s
  rw [h] at hp hbyte hlog
  exact ⟨⟨hbyte, ⟨hanswers, hlog, hfree⟩, hp⟩, ha, hpc, ⟨hx, hy, hs⟩, step1Memory_sameSetting ..⟩

/-- Either mnemonic is the shared operation on a byte operation that counts by its `delta`. -/
theorem decInc_forms {i : Instr} (s : State) {delta : Nat} {rows : List (Nat × AddrMode)}
    (h : (i.mnemonic, delta, rows) ∈
      [(.dec, 255, [(0xC6, .zeroPage), (0xD6, .zeroPageX), (0xCE, .absolute), (0xDE, .absoluteX)]),
       (.inc, 1, [(0xE6, .zeroPage), (0xF6, .zeroPageX), (0xEE, .absolute), (0xFE, .absoluteX)])]) :
    ∃ (f : Byte → Flags → Byte × Flags) (m : MemMode), (∀ v p, f v p = countByte delta v p) ∧
      i.operand = .memory m ∧ i.length = m.length ∧ exec i s = .next (step1Memory f m s) ∧ HasOpcode i rows := by
  simp only [List.mem_cons, Prod.mk.injEq, List.not_mem_nil, or_false] at h
  obtain ⟨hi, rfl, rfl⟩ | ⟨hi, rfl, rfl⟩ := h
  · exact ⟨decByte, (dec_forms s hi).imp fun _ hform => ⟨decByte_eq_countByte, hform⟩⟩
  · exact ⟨incByte, (inc_forms s hi).imp fun _ hform => ⟨incByte_eq_countByte, hform⟩⟩

/-- Settles O43: the form's operand, and what the shared read-modify-write does with the counted byte and its flags. -/
theorem decIncMemory : Obligations.DecIncMemory := by
  intro i s delta rows hi
  obtain ⟨f, m, hcount, hoperand, hlength, hexec, hop⟩ := decInc_forms s hi
  exact ⟨m, step1Memory f m s, hoperand, hop, hexec, hlength ▸ step1Memory_of_byte (hcount ..)⟩

/-! ### DEX, DEY, INX, INY (R161, R162, R164, R165) -/

section register

variable {i : Instr} {s : State} {v : Byte} {n : Nat}

/-- An instruction whose meaning is the shared count of X writes X, N, Z and PC only. -/
theorem exec_countX_next (h : exec i s = .next (countX v s)) (hv : v = BitVec.ofNat 8 (n % 256)) :
    exec i s = .next { s with
      x := BitVec.ofNat 8 (n % 256)
      p := { s.p with n := decide (128 ≤ n % 256), z := decide (n % 256 = 0) }
      pc := s.pc + 1 } := by
  rw [h, hv, countX, setNZ_count]
  rfl

/-- An instruction whose meaning is the shared count of Y writes Y, N, Z and PC only. -/
theorem exec_countY_next (h : exec i s = .next (countY v s)) (hv : v = BitVec.ofNat 8 (n % 256)) :
    exec i s = .next { s with
      y := BitVec.ofNat 8 (n % 256)
      p := { s.p with n := decide (128 ≤ n % 256), z := decide (n % 256 = 0) }
      pc := s.pc + 1 } := by
  rw [h, hv, countY, setNZ_count]
  rfl

end register

/-- Settles O44: each instruction's opcode, and what the shared count does with the register one less or one more. -/
theorem countIndexRegisters : Obligations.CountIndexRegisters := by
  intro s
  refine ⟨?dex, ?dey, ?inx, ?iny⟩
  case dex => exact ⟨rfl, exec_countX_next rfl (sub_one_eq s.x)⟩
  case dey => exact ⟨rfl, exec_countY_next rfl (sub_one_eq s.y)⟩
  case inx => exact ⟨rfl, exec_countX_next rfl (add_one_eq s.x)⟩
  case iny => exact ⟨rfl, exec_countY_next rfl (add_one_eq s.y)⟩

end Sys2Proof.Machine
end

section
/-! PROOFS. Jumps and subroutines (46_jump_subroutine.md): JMP with the page wrap of its pointer (R170, 30_encoding.md R94),
the address JSR pushes (R171), the address RTS pulls (R172), and the round trip of the two. -/

namespace Sys2Proof.Machine

open Sys2Proof

/-! ### JMP (R170) -/

/-- Where JMP Indirect finds the high byte of its target: in the pointer's page with the wrap, else at the next address. -/
def pointerHighAddr (wrap : Bool) (ptr : Word) : Word :=
  if wrap = true ∧ ptr.toNat % 256 = 255 then BitVec.ofNat 16 (ptr.toNat - 255) else ptr + 1

/-- The next address inside the page differs from the next address at the last byte of a page only. -/
theorem pageSuccessor_eq_pointerHighAddr (ptr : Word) :
    ((ptr &&& 0xFF00) ||| ((ptr + 1) &&& 0x00FF)) = pointerHighAddr true ptr := by
  rw [pageSuccessor_eq_ofNat]
  by_cases hlast : ptr.toNat % 256 = 255
  · have hpage : ptr.toNat / 256 * 256 + (ptr.toNat + 1) % 256 = ptr.toNat - 255 := by omega
    simp only [pointerHighAddr, hlast, hpage, and_self, if_true]
  · have hpage : ptr.toNat / 256 * 256 + (ptr.toNat + 1) % 256 = (ptr.toNat + 1) % 65536 := by
      have := ptr.isLt
      omega
    simp only [pointerHighAddr, hlast, hpage, and_false, if_false, succ_eq_ofNat]

/-- With the wrap and without it, the target is the pair of byte reads at the pointer and at its high byte's address. -/
theorem indirectTarget_eq_readPair (s : State) (ptr : Word) :
    s.indirectTarget ptr = s.readPair ptr (pointerHighAddr s.platform.jmpIndPageWrap ptr) := by
  cases hwrap : s.platform.jmpIndPageWrap with
  | true => rw [State.indirectTarget, hwrap, if_pos rfl, State.read16Page, pageSuccessor_eq_pointerHighAddr]
  | false => simp [State.indirectTarget, hwrap, State.read16, pointerHighAddr]

theorem jumpIndirect_pc_of_memory {s : State} (hmem : ∀ b, s.memoryAt b) (ptr : Word) :
    (jumpIndirect ptr s).pc =
      joinBytes (s.byteAt (pointerHighAddr s.platform.jmpIndPageWrap ptr)) (s.byteAt ptr) := by
  rw [jumpIndirect, indirectTarget_eq_readPair, readPair_of_isMemory (hmem _) (hmem _), setPc_pc]

/-- Settles O45: JMP Absolute is a write of PC; JMP Indirect is the read of its target, then a write of PC. -/
theorem jumpSetsPc : Obligations.JumpSetsPc := by
  intro s w
  refine ⟨⟨rfl, rfl⟩, rfl, jumpIndirect w s, rfl, ?target, fun hmem => jumpIndirect_pc_of_memory hmem w, ?frame⟩
  case target => exact ⟨rfl, rfl, rfl, rfl⟩
  case frame =>
    obtain ⟨ha, hx, hy, hs, hp⟩ := jumpIndirect_registers s w
    obtain ⟨hmem, hsetting⟩ := jumpIndirect_memory s w
    exact ⟨ha, hp, ⟨hx, hy, hs⟩, sameMemory_of_mem_eq hmem, hsetting⟩

/-! ### JSR (R171) -/

/-- JSR's stores are those of the push of its return address. -/
theorem jumpSubroutine_twoPushed (w : Word) (s : State) :
    TwoPushed s (jumpSubroutine w s) (hiByte (s.pc + 2)) (loByte (s.pc + 2)) := push16_byteAt s (s.pc + 2)

/-- Settles O46: JSR is the push of the address of its last byte, then a write of PC. -/
theorem jsrPushesReturnAddress : Obligations.JsrPushesReturnAddress := by
  intro s w
  obtain ⟨ha, hx, hy, hs, hp⟩ := jumpSubroutine_registers s w
  exact ⟨rfl, jumpSubroutine w s, rfl, rfl, hs, jumpSubroutine_twoPushed w s, ha, hx, hy, hp,
    jumpSubroutine_sameSetting s w, ⟨rfl, rfl, rfl⟩⟩

/-! ### RTS (R172) -/

theorem returnSubroutine_pc (s : State) : (returnSubroutine s).pc = s.pull16.1 + 1 := rfl

/-- Settles O47: RTS is the pull of a 16-bit value, then a write of PC. -/
theorem rtsReturns : Obligations.RtsReturns := by
  intro s
  obtain ⟨ha, hx, hy, hs, hp⟩ := returnSubroutine_registers s
  obtain ⟨hmem, hsetting⟩ := returnSubroutine_memory s
  refine ⟨rfl, returnSubroutine s, rfl, returnSubroutine_pc s, hs, fun hlo hhi => ?_, ha, hx, hy, hp,
    sameMemory_of_mem_eq hmem, hsetting, ⟨rfl, rfl, rfl⟩⟩
  rw [returnSubroutine_pc, pull16_of_isMemory hlo hhi]

/-! ### RTS after JSR -/

section roundTrip

variable {s : State}

theorem push16_byteAt_high (h : s.ramAt (stackAddr s.s)) (w : Word) :
    (s.push16 w).byteAt (stackAddr s.s) = hiByte w := by
  rw [push16_byteAt, if_pos ⟨rfl, h⟩]

theorem push16_byteAt_low (h : s.ramAt (stackAddr (s.s - 1))) (w : Word) :
    (s.push16 w).byteAt (stackAddr (s.s - 1)) = loByte w := by
  have hne : stackAddr (s.s - 1) ≠ stackAddr s.s := fun heq => byte_ne_sub_one s.s ((stackAddr_eq_iff _ _).1 heq).symm
  rw [push16_byteAt, if_neg fun hhigh => hne hhigh.1, if_pos ⟨rfl, h⟩]

/-- A 16-bit pull gives back the 16-bit value pushed into RAM, in every later state that has S and the two bytes as the push
left them. -/
theorem pull16_of_push16_ram {u : State} {w : Word} (hhi : s.ramAt (stackAddr s.s)) (hlo : s.ramAt (stackAddr (s.s - 1)))
    (hs : u.s = s.s - 2) (hplatform : u.platform = s.platform)
    (hbyteHi : u.byteAt (stackAddr s.s) = (s.push16 w).byteAt (stackAddr s.s))
    (hbyteLo : u.byteAt (stackAddr (s.s - 1)) = (s.push16 w).byteAt (stackAddr (s.s - 1))) :
    u.pull16.1 = w := by
  have hone : u.s + 1 = s.s - 1 := by bv_omega
  have htwo : u.s + 2 = s.s := by bv_omega
  have hmemLo : u.memoryAt (stackAddr (u.s + 1)) := by
    rw [State.memoryAt, hone, hplatform, hlo, RegionKind.isMemory]
  have hmemHi : u.memoryAt (stackAddr (u.s + 2)) := by
    rw [State.memoryAt, htwo, hplatform, hhi, RegionKind.isMemory]
  calc u.pull16.1
      = joinBytes (u.byteAt (stackAddr (u.s + 2))) (u.byteAt (stackAddr (u.s + 1))) := by
        rw [pull16_of_isMemory hmemLo hmemHi]
    _ = joinBytes (hiByte w) (loByte w) := by
        rw [hone, htwo, hbyteHi, hbyteLo, push16_byteAt_high hhi, push16_byteAt_low hlo]
    _ = w := joinBytes_hiByte_loByte w

end roundTrip

/-- Settles O48: RTS pulls the address JSR pushed, and goes one past it. -/
theorem jsrThenRts : Obligations.JsrThenRts := by
  intro s t u w hhi hlo hjsr hs hplatform hbyteHi hbyteLo
  obtain rfl : jumpSubroutine w s = t := Host.Outcome.next.inj hjsr
  obtain ⟨-, -, -, hts, -⟩ := jumpSubroutine_registers s w
  have hus : u.s = s.s - 2 := hs.trans hts
  have hret : u.pull16.1 = s.pc + 2 := pull16_of_push16_ram hhi hlo hus hplatform hbyteHi hbyteLo
  refine ⟨returnSubroutine u, rfl, ?pc, ?stack⟩
  case pc => rw [returnSubroutine_pc, hret, BitVec.add_assoc]; rfl
  case stack =>
    obtain ⟨-, -, -, hrs, -⟩ := returnSubroutine_registers u
    rw [hrs, hus]
    exact BitVec.sub_add_cancel s.s 2

end Sys2Proof.Machine
end

section
/-! PROOFS. Loads and stores (47_load_store.md): LDA, LDX, LDY (R180 to R182) and STA, STX, STY (R183 to R185). -/

namespace Sys2Proof.Machine

open Sys2Proof

/-! ### The loads (R180 to R182) -/

/-- SetNZ (00_scope.md R7), both flags from the byte as a number. -/
theorem setNZ_toNat (v : Byte) (p : Flags) :
    setNZ v p = { p with n := decide (128 ≤ v.toNat), z := decide (v.toNat = 0) } := by
  simpa using setNZ_ofNat v.isLt p

/-- What every load leaves beside its register: N and Z from the operand, S as it was, PC at the next instruction, memory and
the setting as they were, and the bus as the operand's read left it. -/
def OperandLoaded (src : Source) (s t : State) : Prop :=
  t.p = setNZ (src.load s).1 s.p ∧ t.s = s.s ∧ t.pc = s.pc + BitVec.ofNat 16 src.length ∧ SameMemory s t ∧
    SameSetting s t ∧ SameBus (src.load s).2 t

section load

variable (src : Source) (s : State)

theorem loadA_operandLoaded : OperandLoaded src s (loadA src s) := by
  obtain ⟨-, -, -, hs, hp, hpc⟩ := loadA_registers src s
  obtain ⟨hmem, hsetting⟩ := loadA_memory src s
  exact ⟨hp, hs, hpc, sameMemory_of_mem_eq hmem, hsetting, ⟨rfl, rfl, rfl⟩⟩

theorem loadX_operandLoaded : OperandLoaded src s (loadX src s) := by
  obtain ⟨-, -, -, hs, hp, hpc⟩ := loadX_registers src s
  obtain ⟨hmem, hsetting⟩ := loadX_memory src s
  exact ⟨hp, hs, hpc, sameMemory_of_mem_eq hmem, hsetting, ⟨rfl, rfl, rfl⟩⟩

theorem loadY_operandLoaded : OperandLoaded src s (loadY src s) := by
  obtain ⟨-, -, -, hs, hp, hpc⟩ := loadY_registers src s
  obtain ⟨hmem, hsetting⟩ := loadY_memory src s
  exact ⟨hp, hs, hpc, sameMemory_of_mem_eq hmem, hsetting, ⟨rfl, rfl, rfl⟩⟩

end load

/-- Settles O49: the mnemonic's form, the register its shared load writes, and what every load leaves beside. -/
theorem loadsWriteOneRegister : Obligations.LoadsWriteOneRegister := by
  intro i s hi
  simp only [List.mem_cons, List.not_mem_nil, or_false] at hi
  obtain hi | hi | hi := hi
  · obtain ⟨src, hoperand, hlength, hexec, hop⟩ := lda_forms s hi
    obtain ⟨hp, hframe⟩ := loadA_operandLoaded src s
    exact ⟨src, loadA src s, hoperand, hexec, ⟨by simp [hi], by simp [hi], by simp [hi], hp.trans (setNZ_toNat ..)⟩,
      fun _ => hop, fun h => (nomatch hi.symm.trans h), fun h => (nomatch hi.symm.trans h), hlength ▸ hframe⟩
  · obtain ⟨src, hoperand, hlength, hexec, hop⟩ := ldx_forms s hi
    obtain ⟨hp, hframe⟩ := loadX_operandLoaded src s
    exact ⟨src, loadX src s, hoperand, hexec, ⟨by simp [hi], by simp [hi], by simp [hi], hp.trans (setNZ_toNat ..)⟩,
      fun h => (nomatch hi.symm.trans h), fun _ => hop, fun h => (nomatch hi.symm.trans h), hlength ▸ hframe⟩
  · obtain ⟨src, hoperand, hlength, hexec, hop⟩ := ldy_forms s hi
    obtain ⟨hp, hframe⟩ := loadY_operandLoaded src s
    exact ⟨src, loadY src s, hoperand, hexec, ⟨by simp [hi], by simp [hi], by simp [hi], hp.trans (setNZ_toNat ..)⟩,
      fun h => (nomatch hi.symm.trans h), fun h => (nomatch hi.symm.trans h), fun _ => hop, hlength ▸ hframe⟩

/-! ### The stores (R183 to R185) -/

section store

variable (v : Byte) (m : MemMode) (s : State)

theorem storeByte_byteStored : ByteStored s (storeByte v m s) (m.address s).1 v := store_byteAt m v s

/-- After the pointer's read, the bus sees the one write of the register. -/
theorem storeByte_busStored : BusStored (m.address s).2 (storeByte v m s) (m.address s).1 v :=
  ⟨busWrite_answers .., busWrite_busLog .., busWrite_freeCount ..⟩

end store

/-- Whichever the mnemonic, a store is the shared operation on the register it names. -/
theorem store_forms {i : Instr} {s : State} {v : Byte} {rows : List (Nat × AddrMode)}
    (h : (i.mnemonic, v, rows) ∈
      [(.sta, s.a, [(0x85, .zeroPage), (0x95, .zeroPageX), (0x8D, .absolute), (0x9D, .absoluteX), (0x99, .absoluteY),
        (0x81, .indirectX), (0x91, .indirectY)]),
       (.stx, s.x, [(0x86, .zeroPage), (0x96, .zeroPageY), (0x8E, .absolute)]),
       (.sty, s.y, [(0x84, .zeroPage), (0x94, .zeroPageX), (0x8C, .absolute)])]) :
    ∃ m : MemMode, i.operand = .memory m ∧ i.length = m.length ∧ exec i s = .next (storeByte v m s) ∧ HasOpcode i rows := by
  simp only [List.mem_cons, Prod.mk.injEq, List.not_mem_nil, or_false] at h
  obtain ⟨hi, rfl, rfl⟩ | ⟨hi, rfl, rfl⟩ | ⟨hi, rfl, rfl⟩ := h
  · exact sta_forms s hi
  · exact stx_forms s hi
  · exact sty_forms s hi

/-- Settles O50: the form's operand, and what the shared store writes and keeps. -/
theorem storesWriteOneByte : Obligations.StoresWriteOneByte := by
  intro i s v rows hi
  obtain ⟨m, hoperand, hlength, hexec, hop⟩ := store_forms hi
  obtain ⟨ha, hx, hy, hs, hp, hpc⟩ := storeByte_registers s v m
  exact ⟨m, storeByte v m s, hoperand, hop, hexec, storeByte_byteStored v m s, storeByte_busStored v m s, ha, hp,
    hlength ▸ hpc, ⟨hx, hy, hs⟩, storeByte_sameSetting v m s⟩

end Sys2Proof.Machine
end

section
/-! PROOFS. Stack and transfers (48_stack_transfer.md): PHA and PHP (R190, R191), PLA and PLP (R192, R193), a pull after a
push, and the six transfers (R194 to R199). -/

namespace Sys2Proof.Machine

open Sys2Proof

/-! ### PHA and PHP (R190, R191) -/

section push

variable (v : Byte) (s : State)

theorem pushByte_byteStored : ByteStored s (pushByte v s) (stackAddr s.s) v := push_byteAt s v

theorem pushByte_busStored : BusStored s (pushByte v s) (stackAddr s.s) v := by
  obtain ⟨hanswers, hlog, hfree⟩ := push_busStored s v
  exact ⟨hanswers, hlog, hfree⟩

end push

/-- The status byte PHP pushes has bits 5 and 4 set. -/
theorem packP_true_eq (p : Flags) :
    packP true p = BitVec.ofNat 8 (p.n.toNat * 128 + p.v.toNat * 64 + 32 + 16 + p.d.toNat * 8 + p.i.toNat * 4 +
      p.z.toNat * 2 + p.c.toNat) := by
  simp [packP]

/-- Either instruction is the shared push of its byte. -/
theorem push_forms {i : Instr} {s : State} {op v : Byte}
    (h : (i, op, v) ∈ [(Instr.pha, 0x48, s.a), (.php, 0x08, packP true s.p)]) :
    encode i = [op] ∧ exec i s = .next (pushByte v s) := by
  simp only [List.mem_cons, Prod.mk.injEq, List.not_mem_nil, or_false] at h
  obtain ⟨rfl, rfl, rfl⟩ | ⟨rfl, rfl, rfl⟩ := h
  · exact ⟨rfl, rfl⟩
  · exact ⟨rfl, rfl⟩

/-- Settles O51: the byte each instruction pushes, and what the shared push writes and keeps. -/
theorem pushesWriteOneByte : Obligations.PushesWriteOneByte := by
  intro i s op v hi
  rw [← packP_true_eq] at hi
  obtain ⟨hencode, hexec⟩ := push_forms hi
  obtain ⟨ha, hx, hy, hs, hp, hpc⟩ := pushByte_registers v s
  exact ⟨hencode, pushByte v s, hexec, hs, pushByte_byteStored v s, pushByte_busStored v s, ha, hx, hy, hp, hpc,
    pushByte_sameSetting v s⟩

/-! ### PLA and PLP (R192, R193) -/

theorem pull_fst_of_memory {s : State} (h : s.memoryAt (stackAddr (s.s + 1))) :
    s.pull.1 = s.byteAt (stackAddr (s.s + 1)) := by
  rw [pull_of_isMemory h]

/-- Settles O52: PLA is a pull, then a write of A and of N and Z. -/
theorem plaPullsAccumulator : Obligations.PlaPullsAccumulator := by
  intro s
  obtain ⟨ha, hx, hy, hs, hp, hpc⟩ := pullA_registers s
  obtain ⟨hmem, hsetting⟩ := pullA_memory s
  exact ⟨rfl, pullA s, rfl, hs, ha, fun h => ha.trans (pull_fst_of_memory h), hp.trans (setNZ_toNat ..), hx, hy, hpc,
    sameMemory_of_mem_eq hmem, hsetting, ⟨rfl, rfl, rfl⟩⟩

/-- Settles O53: PLP is a pull, then a write of the flags unpacked from the byte. -/
theorem plpPullsFlags : Obligations.PlpPullsFlags := by
  intro s
  obtain ⟨ha, hx, hy, hs, hp, hpc⟩ := pullP_registers s
  obtain ⟨hmem, hsetting⟩ := pullP_memory s
  exact ⟨rfl, pullP s, rfl, hs, hp, pull_fst_of_memory, ha, hx, hy, hpc, sameMemory_of_mem_eq hmem, hsetting,
    ⟨rfl, rfl, rfl⟩⟩

/-! ### A pull after a push -/

section pushPull

variable (v : Byte) {s : State}

/-- The instruction after a push into RAM pulls the byte pushed. -/
theorem pull_pushByte_ram (h : s.ramAt (stackAddr s.s)) : (pushByte v s).pull.1 = v := by
  obtain ⟨hpull, -⟩ := busRead_congr (s := (s.push v).setS ((s.push v).s + 1))
    (t := (pushByte v s).setS ((pushByte v s).s + 1)) (stackAddr ((s.push v).s + 1)) rfl rfl rfl rfl rfl
  exact hpull.trans (pull_push_ram v h)

theorem pullA_pushByte_byteStored : ByteStored s (pullA (pushByte v s)) (stackAddr s.s) v := fun b =>
  (sameMemory_of_mem_eq (pullA_memory _).1 b).trans (pushByte_byteStored v s b)

theorem pullP_pushByte_byteStored : ByteStored s (pullP (pushByte v s)) (stackAddr s.s) v := fun b =>
  (sameMemory_of_mem_eq (pullP_memory _).1 b).trans (pushByte_byteStored v s b)

theorem pullA_pushByte_registers (h : s.ramAt (stackAddr s.s)) :
    (pullA (pushByte v s)).a = v ∧ (pullA (pushByte v s)).s = s.s ∧ (pullA (pushByte v s)).x = s.x ∧
      (pullA (pushByte v s)).y = s.y ∧ (pullA (pushByte v s)).p = setNZ v s.p ∧
      (pullA (pushByte v s)).pc = s.pc + 2 := by
  simp [pull_pushByte_ram v h, BitVec.add_assoc]

theorem pullP_pushByte_registers (h : s.ramAt (stackAddr s.s)) :
    (pullP (pushByte v s)).p = unpackP v ∧ (pullP (pushByte v s)).s = s.s ∧ (pullP (pushByte v s)).a = s.a ∧
      (pullP (pushByte v s)).x = s.x ∧ (pullP (pushByte v s)).y = s.y ∧ (pullP (pushByte v s)).pc = s.pc + 2 := by
  simp [pull_pushByte_ram v h, BitVec.add_assoc]

end pushPull

/-- Settles O54: the byte pulled is the byte pushed, A or the status byte, and the flags unpack from it. -/
theorem pushThenPull : Obligations.PushThenPull := by
  intro s hram
  refine ⟨⟨pushByte (packP true s.p) s, _, rfl, rfl, ?flags⟩, ⟨pushByte s.a s, _, rfl, rfl, ?accumulator⟩⟩
  case flags =>
    obtain ⟨hp, hs, ha, hx, hy, hpc⟩ := pullP_pushByte_registers (packP true s.p) hram
    exact ⟨hp.trans (unpackP_packP true s.p), hs, ha, hx, hy, hpc, pullP_pushByte_byteStored _⟩
  case accumulator =>
    obtain ⟨ha, hs, hx, hy, hp, hpc⟩ := pullA_pushByte_registers s.a hram
    exact ⟨ha, hs, hx, hy, hp.trans (setNZ_eq s.a s.p), hpc, pullA_pushByte_byteStored s.a⟩

/-! ### The transfers (R194 to R199) -/

section transfer

variable (v : Byte) (s : State)

/-- All that a transfer into A writes. -/
theorem transferToA_eq :
    transferToA v s = { s with
      a := v
      p := { s.p with n := decide (128 ≤ v.toNat), z := decide (v.toNat = 0) }
      pc := s.pc + 1 } := by
  rw [transferToA, setNZ_toNat]
  rfl

/-- All that a transfer into X writes. -/
theorem transferToX_eq :
    transferToX v s = { s with
      x := v
      p := { s.p with n := decide (128 ≤ v.toNat), z := decide (v.toNat = 0) }
      pc := s.pc + 1 } := by
  rw [transferToX, setNZ_toNat]
  rfl

/-- All that a transfer into Y writes. -/
theorem transferToY_eq :
    transferToY v s = { s with
      y := v
      p := { s.p with n := decide (128 ≤ v.toNat), z := decide (v.toNat = 0) }
      pc := s.pc + 1 } := by
  rw [transferToY, setNZ_toNat]
  rfl

end transfer

/-- Settles O55: each instruction's opcode, and what the shared transfer of its source writes. -/
theorem transfers : Obligations.Transfers := by
  intro s
  refine ⟨?tax, ?tay, ?tsx, ?txa, ?txs, ?tya⟩
  case tax => exact ⟨rfl, congrArg _ (transferToX_eq s.a s)⟩
  case tay => exact ⟨rfl, congrArg _ (transferToY_eq s.a s)⟩
  case tsx => exact ⟨rfl, congrArg _ (transferToX_eq s.s s)⟩
  case txa => exact ⟨rfl, congrArg _ (transferToA_eq s.x s)⟩
  case txs => exact ⟨rfl, rfl⟩
  case tya => exact ⟨rfl, congrArg _ (transferToA_eq s.y s)⟩

end Sys2Proof.Machine
end

section
/-! PROOFS. Exceptions (60_exceptions.md): what Interrupt(vector, b, ret) leaves (R213), the Reset sequence (R216), the steps
that enter an NMI (R215) and an IRQ (R214), their priority (R218), and the may-rule (R221). -/

namespace Sys2Proof.Machine

open Sys2Proof

/-! ### Three bytes pushed (R213) -/

/-- Every byte after the push of a 16-bit value and of one byte more. -/
theorem push16_push_threePushed (s : State) (ret : Word) (status : Byte) :
    ThreePushed s ((s.push16 ret).push status) (hiByte ret) (loByte ret) status := by
  intro b
  rw [push_byteAt, push16_byteAt, push16_s, push16_platform]
  by_cases hstatus : b = stackAddr (s.s - 2)
  · subst hstatus
    have hne : stackAddr (s.s - 2) ≠ stackAddr s.s := fun h => byte_ne_sub_two s.s ((stackAddr_eq_iff _ _).1 h).symm
    have hne' : stackAddr (s.s - 2) ≠ stackAddr (s.s - 1) := fun h =>
      byte_sub_one_ne_sub_two s.s ((stackAddr_eq_iff _ _).1 h).symm
    simp only [hne, hne', false_and, if_false]
  · simp only [hstatus, false_and, if_false]

section threePushed

variable {s t : State} {hi lo status : Byte}

/-- Over RAM the three bytes stand from S down. -/
theorem byteAt_of_threePushed (h : ThreePushed s t hi lo status) (hhi : s.ramAt (stackAddr s.s))
    (hlo : s.ramAt (stackAddr (s.s - 1))) (hstatus : s.ramAt (stackAddr (s.s - 2))) :
    t.byteAt (stackAddr s.s) = hi ∧ t.byteAt (stackAddr (s.s - 1)) = lo ∧ t.byteAt (stackAddr (s.s - 2)) = status := by
  have hne1 : s.s - 1 ≠ s.s := (byte_ne_sub_one s.s).symm
  have hne2 : s.s - 2 ≠ s.s := (byte_ne_sub_two s.s).symm
  have hne21 : s.s - 2 ≠ s.s - 1 := (byte_sub_one_ne_sub_two s.s).symm
  rw [State.ramAt] at hhi hlo hstatus
  refine ⟨?high, ?low, ?status⟩
  case high => rw [h, if_pos ⟨rfl, hhi⟩]
  case low =>
    rw [h]
    simp only [stackAddr_eq_iff, hne1, false_and, if_false, hlo, and_self, if_true]
  case status =>
    rw [h]
    simp only [stackAddr_eq_iff, hne2, hne21, false_and, if_false, hstatus, and_self, if_true]

/-- Pushes leave every byte outside page one. -/
theorem byteAt_of_threePushed_outside (h : ThreePushed s t hi lo status) {b : Word}
    (hb : b.toNat < 0x0100 ∨ 0x0200 ≤ b.toNat) : t.byteAt b = s.byteAt b := by
  have hne (v : Byte) : b ≠ stackAddr v := by
    rintro rfl
    rw [stackAddr_toNat] at hb
    omega
  rw [h]
  simp only [hne, false_and, if_false]

end threePushed

/-! ### The entry (R213) -/

theorem entryFlags_eq (platform : Platform) (p : Flags) :
    entryFlags platform p = { p with i := true, d := if platform.intClearsD then false else p.d } := by
  rw [entryFlags]
  cases platform.intClearsD <;> simp

theorem read16_of_memory {s : State} {w : Word} (hlo : s.memoryAt w) (hhi : s.memoryAt (w + 1)) :
    s.read16 w = (s.wordAt w, s) := readPair_of_isMemory hlo hhi

section entry

variable (s : State) (vector : Word) (b : Bool) (ret : Word)

/-- The read of a vector does not look at the flags: it gives the word at the vector, and PC is set to it. -/
theorem jumpVector_setP (p : Flags) :
    ((s.setP p).jumpVector vector).pc = (s.read16 vector).1 ∧
      SameBus (s.read16 vector).2 ((s.setP p).jumpVector vector) := by
  rw [State.jumpVector, read16_setP]
  exact ⟨rfl, rfl, rfl, rfl⟩

/-- The entry reads its vector from the state the pushes leave. -/
theorem interrupt_read :
    (s.interrupt vector b ret).pc = (((s.push16 ret).push (packP b s.p)).read16 vector).1 ∧
      SameBus (((s.push16 ret).push (packP b s.p)).read16 vector).2 (s.interrupt vector b ret) :=
  jumpVector_setP _ vector _

/-- Reading the vector writes nothing. -/
theorem interrupt_threePushed :
    ThreePushed s (s.interrupt vector b ret) (hiByte ret) (loByte ret) (packP b s.p) := fun c =>
  (sameMemory_of_mem_eq (jumpVector_mem _ vector) c).trans (push16_push_threePushed s ret (packP b s.p) c)

/-- Over memory outside page zero and page one, the vector holds after the pushes what it held before. -/
theorem interrupt_pc_of_memory (hlo : s.memoryAt vector) (hhi : s.memoryAt (vector + 1)) (hvector : 0x0200 ≤ vector.toNat) :
    (s.interrupt vector b ret).pc = s.wordAt vector := by
  have hpushed := push16_push_threePushed s ret (packP b s.p)
  have hsucc : (vector + 1).toNat = (vector.toNat + 1) % 65536 := BitVec.toNat_add ..
  have hlo' : ((s.push16 ret).push (packP b s.p)).memoryAt vector := by simpa [State.memoryAt] using hlo
  have hhi' : ((s.push16 ret).push (packP b s.p)).memoryAt (vector + 1) := by simpa [State.memoryAt] using hhi
  obtain ⟨hpc, -⟩ := interrupt_read s vector b ret
  rw [hpc, read16_of_memory hlo' hhi', State.wordAt, byteAt_of_threePushed_outside hpushed (by omega),
    byteAt_of_threePushed_outside hpushed (by omega), State.wordAt]

theorem interrupt_taken : InterruptTaken s (s.interrupt vector b ret) vector b ret := by
  obtain ⟨ha, hx, hy, hs, hp, -, hwindow, hplatform, hinputs⟩ := interrupt_registers s vector b ret
  obtain ⟨hpc, hbus⟩ := interrupt_read s vector b ret
  exact
    { accumulator := ha
      indexX := hx
      indexY := hy
      stackPointer := hs
      flags := hp.trans (entryFlags_eq ..)
      memory := interrupt_threePushed s vector b ret
      entryPoint := hpc
      vectorWord := interrupt_pc_of_memory s vector b ret
      bus := hbus
      irqWindow := hwindow
      platform := hplatform
      inputs := hinputs }

end entry

/-- Settles O10: the entry is the three pushes, then the flags, then the read of the vector. -/
theorem interruptEntry : Obligations.InterruptEntry := interrupt_taken

/-! ### What is chosen at a boundary (R218) -/

section boundary

variable {s : State}

theorem action_of_reset (hreset : s.input.resetLine = true) : s.action = .reset := by
  rw [State.action, if_pos hreset]

/-- NMI goes before IRQ, and its condition does not look at I. -/
theorem action_of_nmi (hreset : s.input.resetLine = false) (hnmi : (s.nmiPending || s.input.nmiEdge) = true)
    (haccept : s.input.accept = true) : s.action = .nmi := by
  simp [State.action, State.latched, hreset, hnmi, haccept]

theorem action_of_irq (hreset : s.input.resetLine = false) (hlatch : s.nmiPending = false)
    (hedge : s.input.nmiEdge = false) (hirq : s.irqCondition = true) (haccept : s.input.accept = true) :
    s.action = .irq := by
  simp [State.action, State.latched, hreset, hlatch, hedge, hirq, haccept]

theorem action_of_not_accept (hreset : s.input.resetLine = false) (haccept : s.input.accept = false) :
    s.action = .instruction := by
  simp [State.action, hreset, haccept]

theorem step_of_reset (h : s.action = .reset) : step s = .next (s.latched.resetSequence.setIrqWindow false) := by
  simp only [step, h]

theorem step_of_nmi (h : s.action = .nmi) : step s = .next (s.latched.nmiEntry.setIrqWindow false) := by
  simp only [step, h]

theorem step_of_irq (h : s.action = .irq) : step s = .next (s.latched.irqEntry.setIrqWindow false) := by
  simp only [step, h]

end boundary

/-! ### Reset (R216) -/

/-- The Reset sequence reads its vector from the memory and the bus of before the boundary. -/
theorem resetSequence_read (s : State) :
    s.latched.resetSequence.pc = (s.read16 0xFFFC).1 ∧ SameBus (s.read16 0xFFFC).2 s.latched.resetSequence := by
  obtain ⟨hword, hanswers, hlog, hfree⟩ := readPair_congr (s := s)
    (t := { s.latched with s := s.s - 3, p := entryFlags s.platform s.latched.p, nmiPending := false })
    0xFFFC (0xFFFC + 1) rfl rfl rfl rfl rfl
  exact ⟨hword, hanswers, hlog, hfree⟩

/-- Settles O9: the step is the Reset sequence on the latched state. -/
theorem resetSequence : Obligations.ResetSequence := by
  intro s hreset
  obtain ⟨ha, hx, hy, hs, hp, hnmi, hmem, hplatform, hinputs⟩ := resetSequence_registers s.latched
  obtain ⟨hpc, hanswers, hlog, hfree⟩ := resetSequence_read s
  have hflag (f : Flags → Bool) : f s.latched.resetSequence.p = f (entryFlags s.platform s.latched.p) := congrArg f hp
  refine ⟨s.latched.resetSequence.setIrqWindow false, step_of_reset (action_of_reset hreset), hs, hflag Flags.i, hnmi,
    hpc, fun hlo hhi => ?vector, ha, hx, hy, hflag Flags.n, hflag Flags.z, hflag Flags.c, hflag Flags.v,
    fun hkeep => ?decimal, sameMemory_of_mem_eq hmem, ⟨hanswers, hlog, hfree⟩, hplatform, hinputs, rfl⟩
  case vector => exact hpc.trans (congrArg Prod.fst (read16_of_memory hlo hhi))
  case decimal =>
    have hd : s.latched.resetSequence.p.d = (s.p.d && !s.platform.intClearsD) := hflag Flags.d
    exact hd.trans (by simp [hkeep])

/-! ### NMI (R215) -/

/-- An NMI entered clears the latch. -/
theorem nmiEntry_nmiPending (s : State) : s.nmiEntry.nmiPending = false := by
  simp only [State.nmiEntry, interrupt_registers]

theorem nmiEntry_taken (s : State) : InterruptTaken { s with nmiPending := false } s.nmiEntry 0xFFFA false s.pc :=
  interrupt_taken { s with nmiPending := false } vecNmi false s.pc

/-- Settles O11: the step is the NMI entry, that is Interrupt on the latched state with the latch cleared. -/
theorem nmiEntry : Obligations.NmiEntry := by
  intro s hreset hnmi haccept
  have hcleared : (s.latched.nmiEntry.setIrqWindow false).nmiPending = false := by
    rw [setIrqWindow_nmiPending, nmiEntry_nmiPending]
  exact ⟨s.latched.nmiEntry.setIrqWindow false, step_of_nmi (action_of_nmi hreset hnmi haccept),
    hcleared, rfl, s.latched.nmiEntry, nmiEntry_taken s.latched, rfl⟩

/-! ### IRQ (R214) and the may-rule (R221) -/

/-- An IRQ entered acknowledges nothing: the NMI latch is as it was. -/
theorem irqEntry_nmiPending (s : State) : s.irqEntry.nmiPending = s.nmiPending := by
  simp only [State.irqEntry, interrupt_registers]

theorem irqEntry_taken (s : State) : InterruptTaken s s.irqEntry 0xFFFE false s.pc :=
  interrupt_taken s vecIrq false s.pc

/-- Settles O12: with I = 0 an asserted line meets the condition. -/
theorem irqEntry : Obligations.IrqEntry := by
  intro s hreset hlatch hedge hline hi haccept
  have hirq : s.irqCondition = true := by simp [State.irqCondition, hline, hi]
  have hquiet : (s.latched.irqEntry.setIrqWindow false).nmiPending = false := by
    rw [setIrqWindow_nmiPending, irqEntry_nmiPending]
    simp [State.latched, hlatch, hedge]
  exact ⟨s.latched.irqEntry.setIrqWindow false, step_of_irq (action_of_irq hreset hlatch hedge hirq haccept),
    hquiet, rfl, s.latched.irqEntry, irqEntry_taken s.latched, rfl⟩

/-- Settles O14: an interrupt that the chip does not take leaves the instruction; in R221's window an asserted line meets the
condition with I = 1, which is bit 2 of the status pushed. -/
theorem interruptMayBeDeferred : Obligations.InterruptMayBeDeferred := by
  refine ⟨fun s hreset haccept => step_of_instruction (action_of_not_accept hreset haccept), ?late⟩
  case late =>
    intro s hwindow hi hreset hlatch hedge hline haccept
    have hirq : s.irqCondition = true := by simp [State.irqCondition, hline, hwindow]
    obtain ⟨-, -, -, -, -, hbit, -⟩ := packP_bits false s.latched.p
    exact ⟨s.latched.irqEntry.setIrqWindow false, s.latched.irqEntry,
      step_of_irq (action_of_irq hreset hlatch hedge hirq haccept), irqEntry_taken s.latched, rfl, hbit.trans hi⟩

end Sys2Proof.Machine
end

section
/-! PROOFS. System (49_system.md): BRK (R200), RTI (R201), NOP (R202), and RTI in the handler of an exception
(60_exceptions.md R220, R223). -/

namespace Sys2Proof.Machine

open Sys2Proof

/-! ### BRK and NOP (R200, R202) -/

/-- Settles O56: BRK is Interrupt with the return address PC + 2 and B = 1, which keeps the NMI latch. -/
theorem brkTakesException : Obligations.BrkTakesException := by
  intro s
  obtain ⟨-, -, -, -, -, hnmi, -⟩ := interrupt_registers s vecIrq true (s.pc + 2)
  exact ⟨rfl, s.interrupt vecIrq true (s.pc + 2), rfl, interrupt_taken .., hnmi⟩

/-- Settles O59: NOP is a move of PC to the next instruction. -/
theorem nopAdvancesPc : Obligations.NopAdvancesPc := fun _ => ⟨rfl, rfl⟩

/-! ### RTI (R201) -/

theorem returnFromInterrupt_pc (s : State) : s.returnFromInterrupt.pc = s.pull.2.pull16.1 := rfl

/-- Over memory, RTI takes the status byte, then the low and the high byte of PC, from the three bytes above S. -/
theorem returnFromInterrupt_of_memory {s : State} (hstatus : s.memoryAt (stackAddr (s.s + 1)))
    (hlo : s.memoryAt (stackAddr (s.s + 2))) (hhi : s.memoryAt (stackAddr (s.s + 3))) :
    s.returnFromInterrupt.p = unpackP (s.byteAt (stackAddr (s.s + 1))) ∧
      s.returnFromInterrupt.pc = joinBytes (s.byteAt (stackAddr (s.s + 3))) (s.byteAt (stackAddr (s.s + 2))) := by
  obtain ⟨-, -, -, -, hp, -⟩ := returnFromInterrupt_registers s
  refine ⟨hp.trans (congrArg unpackP (pull_fst_of_memory hstatus)), ?pc⟩
  case pc =>
    have htwo : s.s + 1 + 1 = s.s + 2 := by bv_omega
    have hthree : s.s + 1 + 2 = s.s + 3 := by bv_omega
    have hlo' : (s.setS (s.s + 1)).memoryAt (stackAddr ((s.setS (s.s + 1)).s + 1)) := by
      simpa only [State.memoryAt, setS_s, setS_platform, htwo] using hlo
    have hhi' : (s.setS (s.s + 1)).memoryAt (stackAddr ((s.setS (s.s + 1)).s + 2)) := by
      simpa only [State.memoryAt, setS_s, setS_platform, hthree] using hhi
    rw [returnFromInterrupt_pc, pull_of_isMemory hstatus, pull16_of_isMemory hlo' hhi', setS_s, htwo, hthree,
      setS_byteAt, setS_byteAt]

theorem sameBus_setP_setPc (s : State) (p : Flags) (w : Word) : SameBus s ((s.setP p).setPc w) := ⟨rfl, rfl, rfl⟩

/-- After its three pulls RTI leaves the bus alone. -/
theorem returnFromInterrupt_sameBus (s : State) : SameBus s.pull.2.pull16.2 s.returnFromInterrupt :=
  sameBus_setP_setPc s.pull.2.pull16.2 _ _

/-- Settles O57: RTI is a pull of the flags and a 16-bit pull of PC. -/
theorem rtiReturns : Obligations.RtiReturns := by
  intro s
  obtain ⟨ha, hx, hy, hs, hp, -⟩ := returnFromInterrupt_registers s
  obtain ⟨hmem, hsetting⟩ := returnFromInterrupt_memory s
  exact ⟨rfl, s.returnFromInterrupt, rfl, hs, hp, returnFromInterrupt_pc s, returnFromInterrupt_of_memory, ha, hx, hy,
    sameMemory_of_mem_eq hmem, hsetting, returnFromInterrupt_sameBus s⟩

/-! ### RTI in a handler (60_exceptions.md R220, R223) -/

/-- Three bytes pushed into RAM come back as the flags and PC, in every later state that has S and the three bytes as the
pushes left them. -/
theorem returnFromInterrupt_of_threePushed {s t u : State} {ret : Word} {b : Bool}
    (hpushed : ThreePushed s t (hiByte ret) (loByte ret) (packP b s.p))
    (hhi : s.ramAt (stackAddr s.s)) (hlo : s.ramAt (stackAddr (s.s - 1))) (hstatus : s.ramAt (stackAddr (s.s - 2)))
    (hs : u.s = s.s - 3) (hplatform : u.platform = s.platform)
    (hbyteHi : u.byteAt (stackAddr s.s) = t.byteAt (stackAddr s.s))
    (hbyteLo : u.byteAt (stackAddr (s.s - 1)) = t.byteAt (stackAddr (s.s - 1)))
    (hbyteStatus : u.byteAt (stackAddr (s.s - 2)) = t.byteAt (stackAddr (s.s - 2))) :
    u.returnFromInterrupt.p = s.p ∧ u.returnFromInterrupt.pc = ret := by
  obtain ⟨hpushedHi, hpushedLo, hpushedStatus⟩ := byteAt_of_threePushed hpushed hhi hlo hstatus
  have hone : u.s + 1 = s.s - 2 := by bv_omega
  have htwo : u.s + 2 = s.s - 1 := by bv_omega
  have hthree : u.s + 3 = s.s := by bv_omega
  have memoryAt_of_ramAt {addr : Word} (hram : s.ramAt addr) : u.memoryAt addr := by
    rw [State.memoryAt, hplatform, hram, RegionKind.isMemory]
  obtain ⟨hp, hpc⟩ := returnFromInterrupt_of_memory (s := u) (hone ▸ memoryAt_of_ramAt hstatus)
    (htwo ▸ memoryAt_of_ramAt hlo) (hthree ▸ memoryAt_of_ramAt hhi)
  rw [hone, hbyteStatus, hpushedStatus, unpackP_packP] at hp
  rw [htwo, hthree, hbyteHi, hbyteLo, hpushedHi, hpushedLo, joinBytes_hiByte_loByte] at hpc
  exact ⟨hp, hpc⟩

/-- Settles O58: the three bytes that the entry pushed are those that RTI pulls. -/
theorem interruptThenRti : Obligations.InterruptThenRti := by
  intro s u vector b ret hhi hlo hstatus hs hplatform hbyteHi hbyteLo hbyteStatus
  have htaken := interrupt_taken s vector b ret
  have hus : u.s = s.s - 3 := hs.trans htaken.stackPointer
  obtain ⟨hp, hpc⟩ := returnFromInterrupt_of_threePushed htaken.memory hhi hlo hstatus hus hplatform hbyteHi hbyteLo
    hbyteStatus
  obtain ⟨-, -, -, hrs, -, hmem, -⟩ := returnFromInterrupt_registers u
  refine ⟨u.returnFromInterrupt, rfl, hpc, hp, ?stack, sameMemory_of_mem_eq hmem⟩
  case stack =>
    rw [hrs, hus]
    exact BitVec.sub_add_cancel s.s 3

end Sys2Proof.Machine
end
